-- ==== Sys2Proof/Word.lean ====
section
/-! DEFINITION. The byte and the 32-bit word of MD4CORE (00_scope.md R8, R10): `u8` and `u32`. -/

namespace Sys2Proof

/-- `u8`. -/
abbrev Byte := BitVec 8

/-- `u32`. -/
abbrev Word := BitVec 32

end Sys2Proof
end

