-- ==== Sys2Proof/Config.lean ====
section
/-! DEFINITION. What the spec leaves to the platform, and the free values: constants without a body, of which nothing can
be proved. -/

namespace Sys2Proof

/-- The free values: the n-th is whatever the machine holds where the spec lets it hold anything
(93_implementation_defined.md U8: the working registers outside a compression). DESIGN CHOICE, log 3;
that all runs and all instances draw from this one stream is log 24 (unsafe). -/
opaque Config.freeWord : Nat → Word

/-- `N_INSTANCES` (00_scope.md R9, D18): how many instances a platform holds. Log 19. -/
opaque Config.nInstances : Nat

/-- `MD4CORE_BASE` (20_memory.md R60, D19): where the ports sit in a system's address space. No rule reads it. Log 23. -/
opaque Config.md4coreBase : Nat

end Sys2Proof
end

