-- ==== Sys2Proof/Machine/Codec.lean ====
section
/-! DEFINITION. The word codec (40_word_codec.md): little-endian in both directions (20_memory.md R52). -/

namespace Sys2Proof.Machine

/-- R100: the four bytes of a word, least significant first. -/
def encode32 (w : Word) : List Byte :=
  [w.extractLsb' 0 8, w.extractLsb' 8 8, w.extractLsb' 16 8, w.extractLsb' 24 8]

/-- R101: the word of four bytes, the first the least significant. -/
def le32 (b0 b1 b2 b3 : Byte) : Word :=
  b0.setWidth 32 ||| (b1.setWidth 32 <<< 8) ||| (b2.setWidth 32 <<< 16) ||| (b3.setWidth 32 <<< 24)

/-- R102: DECODE, n words of the byte sequence B from offset off. -/
@[irreducible] def decodeWords (B : Nat → Byte) (off n : Nat) : Vector Word n :=
  Vector.ofFn fun i =>
    le32 (B (off + 4 * i.val)) (B (off + 4 * i.val + 1)) (B (off + 4 * i.val + 2)) (B (off + 4 * i.val + 3))

/-- R103: ENCODE. -/
def encodeWords (ws : List Word) : List Byte := ws.flatMap encode32

/-- Byte j of a byte sequence given as a list (00_scope.md R13, the sources PAD and LENF of 20_memory.md R50). -/
def listByte (bs : List Byte) (j : Nat) : Byte := bs.getD j 0x00#8

end Sys2Proof.Machine
end

