-- ==== Sys2Proof/Machine/Constants.lean ====
section
/-! DEFINITION. The constants of the algorithm: initial state, and per round the word order, the rotate amounts and the
additive constant. -/

namespace Sys2Proof.Machine

/-- R20: the initial chaining state. -/
def initialState : Vector Word 4 := #v[0x67452301#32, 0xefcdab89#32, 0x98badcfe#32, 0x10325476#32]

/-- R86: ORDER_r[j], for r = 0, 1, 2 (rounds 1, 2, 3). -/
def wordOrder (r j : Nat) : Fin 16 :=
  match r with
  | 0 => Fin.ofNat 16 j
  | 1 => [0, 4, 8, 12, 1, 5, 9, 13, 2, 6, 10, 14, 3, 7, 11, 15].getD j 0
  | _ => [0, 8, 4, 12, 2, 10, 6, 14, 1, 9, 5, 13, 3, 11, 7, 15].getD j 0

/-- R86, R113: SHIFT_r[p]. -/
def rotateAmount (r p : Nat) : Nat :=
  match r with
  | 0 => [3, 7, 11, 19].getD p 0
  | 1 => [3, 5, 9, 13].getD p 0
  | _ => [3, 9, 11, 15].getD p 0

/-- R86, R114: K_r. -/
def roundConstant (r : Nat) : Word :=
  match r with
  | 0 => 0x00000000#32
  | 1 => 0x5a827999#32
  | _ => 0x6ed9eba1#32

end Sys2Proof.Machine
end

