-- ==== Sys2Proof/Syntax.lean ====
section
/-! DEFINITION. The instructions of MD4CORE: one constructor per row of spec/opcode_table.json (30_encoding.md R72, R88,
R91), the events the host can put on the machine's inputs (R70, R83), and the lines of the spec's assembler (R89, R90). -/

namespace Sys2Proof

/-- The three commands (R72) and the 49 micro-operations of a compression (R85, R88). -/
inductive Instr where
  /-- INIT: `initialize()` (42_initialize.md R180). -/
  | init
  /-- UPDATE: `update(bytes)` over `SRC[off .. off+len-1]` (43_update.md R190). OFF and LEN are integers 0 to 2^32 - 1
  (R75); `Instr.wf` is that range. -/
  | update (off len : Nat)
  /-- FINALIZE: `finalize() -> digest[16]` (44_finalize.md R210). -/
  | finalize
  /-- STEP_R1_00: SC = 0 (41_compression.md R120). -/
  | stepR1_00
  /-- STEP_R1_01: SC = 1 (41_compression.md R121). -/
  | stepR1_01
  /-- STEP_R1_02: SC = 2 (41_compression.md R122). -/
  | stepR1_02
  /-- STEP_R1_03: SC = 3 (41_compression.md R123). -/
  | stepR1_03
  /-- STEP_R1_04: SC = 4 (41_compression.md R124). -/
  | stepR1_04
  /-- STEP_R1_05: SC = 5 (41_compression.md R125). -/
  | stepR1_05
  /-- STEP_R1_06: SC = 6 (41_compression.md R126). -/
  | stepR1_06
  /-- STEP_R1_07: SC = 7 (41_compression.md R127). -/
  | stepR1_07
  /-- STEP_R1_08: SC = 8 (41_compression.md R128). -/
  | stepR1_08
  /-- STEP_R1_09: SC = 9 (41_compression.md R129). -/
  | stepR1_09
  /-- STEP_R1_10: SC = 10 (41_compression.md R130). -/
  | stepR1_10
  /-- STEP_R1_11: SC = 11 (41_compression.md R131). -/
  | stepR1_11
  /-- STEP_R1_12: SC = 12 (41_compression.md R132). -/
  | stepR1_12
  /-- STEP_R1_13: SC = 13 (41_compression.md R133). -/
  | stepR1_13
  /-- STEP_R1_14: SC = 14 (41_compression.md R134). -/
  | stepR1_14
  /-- STEP_R1_15: SC = 15 (41_compression.md R135). -/
  | stepR1_15
  /-- STEP_R2_00: SC = 16 (41_compression.md R136). -/
  | stepR2_00
  /-- STEP_R2_01: SC = 17 (41_compression.md R137). -/
  | stepR2_01
  /-- STEP_R2_02: SC = 18 (41_compression.md R138). -/
  | stepR2_02
  /-- STEP_R2_03: SC = 19 (41_compression.md R139). -/
  | stepR2_03
  /-- STEP_R2_04: SC = 20 (41_compression.md R140). -/
  | stepR2_04
  /-- STEP_R2_05: SC = 21 (41_compression.md R141). -/
  | stepR2_05
  /-- STEP_R2_06: SC = 22 (41_compression.md R142). -/
  | stepR2_06
  /-- STEP_R2_07: SC = 23 (41_compression.md R143). -/
  | stepR2_07
  /-- STEP_R2_08: SC = 24 (41_compression.md R144). -/
  | stepR2_08
  /-- STEP_R2_09: SC = 25 (41_compression.md R145). -/
  | stepR2_09
  /-- STEP_R2_10: SC = 26 (41_compression.md R146). -/
  | stepR2_10
  /-- STEP_R2_11: SC = 27 (41_compression.md R147). -/
  | stepR2_11
  /-- STEP_R2_12: SC = 28 (41_compression.md R148). -/
  | stepR2_12
  /-- STEP_R2_13: SC = 29 (41_compression.md R149). -/
  | stepR2_13
  /-- STEP_R2_14: SC = 30 (41_compression.md R150). -/
  | stepR2_14
  /-- STEP_R2_15: SC = 31 (41_compression.md R151). -/
  | stepR2_15
  /-- STEP_R3_00: SC = 32 (41_compression.md R152). -/
  | stepR3_00
  /-- STEP_R3_01: SC = 33 (41_compression.md R153). -/
  | stepR3_01
  /-- STEP_R3_02: SC = 34 (41_compression.md R154). -/
  | stepR3_02
  /-- STEP_R3_03: SC = 35 (41_compression.md R155). -/
  | stepR3_03
  /-- STEP_R3_04: SC = 36 (41_compression.md R156). -/
  | stepR3_04
  /-- STEP_R3_05: SC = 37 (41_compression.md R157). -/
  | stepR3_05
  /-- STEP_R3_06: SC = 38 (41_compression.md R158). -/
  | stepR3_06
  /-- STEP_R3_07: SC = 39 (41_compression.md R159). -/
  | stepR3_07
  /-- STEP_R3_08: SC = 40 (41_compression.md R160). -/
  | stepR3_08
  /-- STEP_R3_09: SC = 41 (41_compression.md R161). -/
  | stepR3_09
  /-- STEP_R3_10: SC = 42 (41_compression.md R162). -/
  | stepR3_10
  /-- STEP_R3_11: SC = 43 (41_compression.md R163). -/
  | stepR3_11
  /-- STEP_R3_12: SC = 44 (41_compression.md R164). -/
  | stepR3_12
  /-- STEP_R3_13: SC = 45 (41_compression.md R165). -/
  | stepR3_13
  /-- STEP_R3_14: SC = 46 (41_compression.md R166). -/
  | stepR3_14
  /-- STEP_R3_15: SC = 47 (41_compression.md R167). -/
  | stepR3_15
  /-- FEEDFORWARD: SC = 48 (41_compression.md R170). -/
  | feedforward
deriving DecidableEq, Repr

/-- What the host can do at the input ports (R70): put one word on CMD, present a source window on SRC, assert RST (R83). -/
inductive HostEvent where
  /-- One 32-bit word on CMD. -/
  | word (w : Word)
  /-- The bytes SRC shows from now on, `SRC[0]` first; SRC_SIZE is their number. -/
  | src (bytes : List Byte)
  /-- Hardware reset. -/
  | rst
deriving DecidableEq, Repr

/-- One line of the spec's assembler (R89), the pseudo-commands of R90 among them. -/
inductive Line where
  | init
  | update (off len : Nat)
  | finalize
  /-- `.src <bytes>` -/
  | src (bytes : List Byte)
  /-- `.word <hex32>` -/
  | word (w : Nat)
  | rst
  /-- `HASH <len>` -/
  | hash (len : Nat)
  /-- `UPDATE_ALL` -/
  | updateAll
  /-- `RESTART` -/
  | restart
deriving DecidableEq, Repr

end Sys2Proof
end

