-- ==== Sys2Proof/Machine/State.lean ====
section
/-! DEFINITION. The state of one MD4CORE instance (10_state.md), the two ways the model stops, and the state after reset
(70_reset_and_hazards.md R260, R262). -/

namespace Sys2Proof.Machine

/-- The names of the working registers of a compression (R28). -/
inductive Reg where
  | a | b | c | d
deriving DecidableEq, Repr

/-- The working registers a, b, c, d (R28). -/
structure Working where
  a : Word
  b : Word
  c : Word
  d : Word
deriving DecidableEq, Repr

/-- R31: PHASE, 0 = INITIALIZED, 1 = UPDATING. -/
inductive Phase where
  | initialized | updating
deriving DecidableEq, Repr

/-- R33: CAUSE; the reserved value 3 is never written, so it is no constructor. -/
inductive Cause where
  | none | bounds | illegal
deriving DecidableEq, Repr

/-- R79: the CODE of a response. -/
inductive RspCode where
  | ok | boundsFault | illegalCommand | refused
deriving DecidableEq, Repr

/-- R80: a response; only a FINALIZE answered OK carries the 16 digest bytes. -/
structure Response where
  code : RspCode
  digest : Option (Vector Byte 16)
deriving DecidableEq, Repr

/-- The bytes of the source window: the cells that do not read as `Memory.unlisted`, addresses strictly rising (log 4). -/
abbrev Memory := List Host.Cell

/-- The state of one instance. -/
structure State where
  /-- S[0..3], the chaining state (R20). -/
  S : Vector Word 4
  /-- bitCount, bits 31:0 (R21). -/
  countLo : Word
  /-- bitCount, bits 63:32 (R21). -/
  countHi : Word
  /-- BUF[0..63], pendingBuffer (R22). -/
  buf : Vector Byte 64
  /-- pendingLen, 0 to 63 (R23). -/
  pendingLen : Fin 64
  /-- DIGEST[0..15] (R26), which drives the DIGEST output (R82). -/
  digest : Vector Byte 16
  /-- X[0..15], the message-word scratch (R27). -/
  X : Vector Word 16
  /-- a, b, c, d (R28). -/
  work : Working
  /-- SC, the step counter (R29). -/
  sc : BitVec 6
  /-- PHASE (R31). -/
  phase : Phase
  /-- FAULT (R32). -/
  fault : Bool
  /-- CAUSE (R33). -/
  cause : Cause
  /-- RSP: the response the last transition produced, if it produced one (R70, R77). DESIGN CHOICE, log 6. -/
  rsp : Option Response
  /-- The words of a partly received command (R260). -/
  rx : List Word
  /-- SRC_SIZE (R50). -/
  srcSize : Nat
  /-- The bytes of SRC (R50). -/
  srcMem : Memory
  /-- What the host has put on the input ports and the machine has not yet consumed, oldest first (R70, R83). -/
  inbox : List HostEvent
  /-- The model's own: a compression is being run one micro-operation at a time, and SC selects the next. DESIGN CHOICE, log 1. -/
  compressing : Bool
  /-- The model's own: how many free values have been drawn. DESIGN CHOICE, log 3. -/
  freeCount : Nat
deriving DecidableEq, Repr

/-- The machine stops. BoundsFault and IllegalCommand are not here: they are next states (R233). -/
inductive Fault where
  /-- Raised by `step` when a compression is running and SC is 49 to 63, to which R87 gives no meaning ("stuck"). Safe. -/
  | stuckStepCounter (sc : BitVec 6)
deriving DecidableEq, Repr

/-- The model gives no meaning. -/
inductive Refusal where
  /-- Raised by an arm of `exec` whose instruction has no meaning yet: no arm does. Safe. -/
  | notModelled (mnemonic : String)
  /-- Raised by `step` when the host presents a source window of 2^32 bytes or more, outside SRC_SIZE's range (R9). Safe. Log 12. -/
  | sourceTooLarge
deriving DecidableEq, Repr

/-- R39, R260, R262: the machine right after hardware reset. The values of `work`, `srcSize`, `srcMem`, `inbox`,
`compressing`, `freeCount` and `rsp` are the model's choice (log 1, 2, 3, 4, 6, 11). -/
def State.reset : State where
  S := initialState
  countLo := 0#32
  countHi := 0#32
  buf := Vector.replicate 64 0x00#8
  pendingLen := 0
  digest := Vector.replicate 16 0x00#8
  X := Vector.replicate 16 0#32
  work := ⟨0#32, 0#32, 0#32, 0#32⟩
  sc := 0#6
  phase := .initialized
  fault := false
  cause := .none
  rsp := none
  rx := []
  srcSize := 0
  srcMem := []
  inbox := []
  compressing := false
  freeCount := 0

end Sys2Proof.Machine
end

