-- ==== Sys2Proof/Machine/Ops.lean ====
section
/-! DEFINITION. The named operations over the state: the source memory, responses, fault entry, context reset and
hardware reset. -/

namespace Sys2Proof.Machine

/-- What an address with no cell reads as. SRC is presented whole, so this is a way to write bytes down, not a value the
machine invents (log 4). -/
def Memory.unlisted : Byte := 0x00#8

/-- The canonical form from an address on: addresses strictly rising, no cell equal to what an unlisted address reads as. -/
def Memory.wfFrom (lo : Nat) : Memory → Bool
  | [] => true
  | (a, b) :: m => decide (lo ≤ a) && decide (b ≠ Memory.unlisted) && Memory.wfFrom (a + 1) m

/-- The canonical form. -/
def Memory.wf (m : Memory) : Bool := Memory.wfFrom 0 m

/-- Every cell lies inside a window of n bytes. -/
def Memory.within (n : Nat) (m : Memory) : Bool := m.all fun c => decide (c.1 < n)

/-- The byte at an address. -/
def Memory.read (m : Memory) (a : Nat) : Byte :=
  match m with
  | [] => Memory.unlisted
  | (k, b) :: m => if k = a then b else Memory.read m a

/-- The cells of a byte sequence that starts at an address. -/
def Memory.ofBytesAt (a : Nat) : List Byte → Memory
  | [] => []
  | b :: bs =>
    if b = Memory.unlisted then Memory.ofBytesAt (a + 1) bs else (a, b) :: Memory.ofBytesAt (a + 1) bs

/-- The cells of a source window (R50). -/
def Memory.ofBytes (bs : List Byte) : Memory := Memory.ofBytesAt 0 bs

/-- SRC[j] (R13, R50). Every caller stays below SRC_SIZE: the bounds check of R240 comes first. -/
def State.srcByte (s : State) (j : Nat) : Byte := Memory.read s.srcMem j

/-- The host presents a source window (R70): SRC and SRC_SIZE change, nothing else (R50). -/
def presentSource (bytes : List Byte) (s : State) : State :=
  { s with srcSize := bytes.length, srcMem := Memory.ofBytes bytes }

/-- `rsp <- code` (R80). -/
def respond (code : RspCode) (s : State) : State := { s with rsp := some ⟨code, none⟩ }

/-- R80: the response of a FINALIZE answered OK, which carries DIGEST[0..15]. -/
def respondDigest (s : State) : State := { s with rsp := some ⟨.ok, some s.digest⟩ }

/-- No response (R77: "no response is produced otherwise"); log 6. -/
def clearResponse (s : State) : State := { s with rsp := none }

/-- R79, R232: the CODE a fault answers with. -/
def Cause.code : Cause → RspCode
  | .none => .ok
  | .bounds => .boundsFault
  | .illegal => .illegalCommand

/-- R233: fault entry, `raise Fault(cause)` and the response of R232. Nothing else is written (R234); there is no saved
state, no vector and no return (R242). -/
def raiseFault (cause : Cause) (s : State) : State :=
  respond cause.code { s with fault := true, cause := cause }

/-- R235: a faulted machine consumes the command, writes nothing and answers REFUSED. -/
def refuse (s : State) : State := respond .refused s

/-- R241, with the priority of R238: what an illegal header does. -/
def illegalCommand (s : State) : State :=
  if s.fault then refuse s else raiseFault .illegal s

/-- R181: CONTEXT_RESET. It writes SC to 0, so no compression is running after it (log 15). -/
def contextReset (s : State) : State :=
  { s with
    S := initialState
    countLo := 0#32
    countHi := 0#32
    buf := Vector.replicate 64 0x00#8
    pendingLen := 0
    X := Vector.replicate 16 0#32
    sc := 0#6
    compressing := false }

/-- R182, R260: DIGEST to 16 zero bytes. -/
def clearDigest (s : State) : State := { s with digest := Vector.replicate 16 0x00#8 }

/-- R260: hardware reset. A partly received command is discarded and no response is produced. The inputs (SRC and the
events not yet consumed) are the host's and stay; a, b, c, d are not state here (R39). Log 10. -/
def hardwareReset (s : State) : State :=
  { clearDigest (contextReset s) with
    phase := .initialized
    fault := false
    cause := .none
    rx := []
    rsp := none }

end Sys2Proof.Machine
end

