-- ==== Sys2Proof/Machine/Operands.lean ====
section
/-! DEFINITION. The operands of UPDATE and the fields FINALIZE reads: the window, its bounds check, the pending bytes, the
bit count and its slice. -/

namespace Sys2Proof.Machine

/-- R75, R240: the window `SRC[off .. off+len-1]` reaches past SRC_SIZE; the sum does not wrap. -/
def State.outOfBounds (s : State) (off len : Nat) : Bool := decide (s.srcSize < off + len)

/-- The n bytes of a byte source from offset o, in ascending order. -/
def sourceBytes (B : Nat → Byte) (o n : Nat) : List Byte := (List.range n).map fun j => B (o + j)

/-- R13: `MemRead(off, len)`, the bytes of the window of SRC. -/
def State.window (s : State) (off len : Nat) : List Byte := sourceBytes s.srcByte off len

/-- BUF[j], as a byte source for a compression (R174). -/
def State.bufByte (s : State) (j : Nat) : Byte := listByte s.buf.toList j

/-- R22: the meaningful bytes of BUF. -/
def State.pending (s : State) : List Byte := s.buf.toList.take s.pendingLen.val

/-- R21: bitCount, `count_hi` above `count_lo`. -/
def State.bitCount (s : State) : BitVec 64 := s.countHi ++ s.countLo

/-- R212: r = count_lo[8:3]. -/
def State.bytePosition (s : State) : Nat := (s.countLo.extractLsb' 3 6).toNat

/-- R212: the padding length. -/
def padLength (r : Nat) : Nat := if r < 56 then 56 - r else 120 - r

/-- R212, R222: the padding bytes, 0x80 and then zeros. -/
def padBytes (padLen : Nat) : List Byte := 0x80#8 :: List.replicate (padLen - 1) 0x00#8

/-- R211: the length field, captured from the pre-padding count. -/
def State.lengthField (s : State) : List Byte := encodeWords [s.countLo, s.countHi]

/-- R215: the digest bytes of the chaining state. -/
@[irreducible] def State.stateBytes (s : State) : Vector Byte 16 :=
  Vector.ofFn fun k => listByte (encodeWords s.S.toList) k.val

end Sys2Proof.Machine
end

