-- ==== Sys2Proof/Machine/Compression.lean ====
section
/-! DEFINITION. The compression function (41_compression.md): round functions, the shared step, the start of a compression,
the feed-forward, and the whole. -/

namespace Sys2Proof.Machine

/-- R11: rotate left, for 0 < s < 32 (R113). -/
def rotl32 (v : Word) (s : Nat) : Word := (v <<< s) ||| (v >>> (32 - s))

/-- R110: F. -/
def roundF (x y z : Word) : Word := (x &&& y) ||| (~~~x &&& z)

/-- R111: G. -/
def roundG (x y z : Word) : Word := (x &&& y) ||| (x &&& z) ||| (y &&& z)

/-- R112: H. -/
def roundH (x y z : Word) : Word := x ^^^ y ^^^ z

/-- A working register. -/
def Working.get (w : Working) : Reg → Word
  | .a => w.a
  | .b => w.b
  | .c => w.c
  | .d => w.d

/-- A working register written, the others kept. -/
def Working.set (w : Working) (r : Reg) (v : Word) : Working :=
  match r with
  | .a => { w with a := v }
  | .b => { w with b := v }
  | .c => { w with c := v }
  | .d => { w with d := v }

/-- R117, R119: one step as a function of the four working registers:
`t <- rotl32(t +32 fn(x, y, z) +32 X[k] +32 K, sh)`, every read before the write. -/
def roundStep (t x y z : Reg) (fn : Word → Word → Word → Word) (word const : Word) (sh : Nat) (w : Working) : Working :=
  w.set t (rotl32 (w.get t + fn (w.get x) (w.get y) (w.get z) + word + const) sh)

/-- R117, R171: the micro-operation SC = n on the state: the step, and `SC <- n + 1`. -/
def microStep (n : Nat) (t x y z : Reg) (fn : Word → Word → Word → Word) (k : Fin 16) (const : Word) (sh : Nat)
    (s : State) : State :=
  { s with
    work := roundStep t x y z fn s.X[k] const sh s.work
    sc := BitVec.ofNat 6 (n + 1) }

/-- R86: the round function of round r + 1. -/
def roundFunction (r : Nat) : Word → Word → Word → Word :=
  match r with
  | 0 => roundF
  | 1 => roundG
  | _ => roundH

/-- R86: target and arguments of position p: (a,b,c,d), (d,a,b,c), (c,d,a,b), (b,c,d,a). -/
def positionRegs (p : Nat) : Reg × Reg × Reg × Reg :=
  match p with
  | 0 => (.a, .b, .c, .d)
  | 1 => (.d, .a, .b, .c)
  | 2 => (.c, .d, .a, .b)
  | _ => (.b, .c, .d, .a)

/-- R172: the body of the loop, step n of 0 .. 47 over message words X. -/
def loopStep (X : Vector Word 16) (w : Working) (n : Nat) : Working :=
  let r := n / 16
  let j := n % 16
  let p := j % 4
  let (t, x, y, z) := positionRegs p
  roundStep t x y z (roundFunction r) X[wordOrder r j] (roundConstant r) (rotateAmount r p) w

/-- R172: the 48 steps in order. -/
@[irreducible] def rounds (X : Vector Word 16) (w : Working) : Working := (List.range 48).foldl (loopStep X) w

/-- R116: the working registers at the start of a compression. -/
def loadWorking (S : Vector Word 4) : Working := ⟨S[0], S[1], S[2], S[3]⟩

/-- R170: `S[i] <- S[i] +32 (a, b, c, d)[i]`. -/
def addWorking (S : Vector Word 4) (w : Working) : Vector Word 4 :=
  #v[S[0] + w.a, S[1] + w.b, S[2] + w.c, S[3] + w.d]

/-- R172, R115: COMPRESS as a function of the chaining state and the 64 bytes B[p .. p+63]. -/
def compressWords (S : Vector Word 4) (B : Nat → Byte) (p : Nat) : Vector Word 4 :=
  addWorking S (rounds (decodeWords B p 16) (loadWorking S))

/-- R116: the start of a compression on the state. -/
def startCompression (B : Nat → Byte) (p : Nat) (s : State) : State :=
  { s with
    X := decodeWords B p 16
    work := loadWorking s.S
    sc := 0#6
    compressing := true }

/-- The working registers once a compression has ended: not state any more, any value (R28, U8). Free values, log 2. -/
def releaseWorking (s : State) : State :=
  { s with
    work := ⟨Config.freeWord s.freeCount, Config.freeWord (s.freeCount + 1), Config.freeWord (s.freeCount + 2),
      Config.freeWord (s.freeCount + 3)⟩
    freeCount := s.freeCount + 4 }

/-- R170, R171: the feed-forward and the end of the compression. -/
def feedForward (s : State) : State :=
  releaseWorking { s with S := addWorking s.S s.work, sc := 0#6, compressing := false }

/-- R172: COMPRESS on the state, from the start of the compression to the feed-forward, as one operation (R84). -/
def compress (B : Nat → Byte) (p : Nat) (s : State) : State :=
  let t := startCompression B p s
  feedForward { t with work := rounds t.X t.work }

end Sys2Proof.Machine
end

