-- ==== Sys2Proof/Machine/FeedForward.lean ====
section
/-! DEFINITION. The micro-operation SC = 48 (41_compression.md R170, R171). -/

namespace Sys2Proof.Machine

/-- R170: FEEDFORWARD. -/
def execFeedForward (s : State) : Host.Outcome State Fault Refusal := .next (feedForward s)

end Sys2Proof.Machine
end

