-- ==== Sys2Proof/Machine/Stream.lean ====
section
/-! DEFINITION. UPDATE_CORE (43_update.md R191 to R197), which UPDATE and FINALIZE share. -/

namespace Sys2Proof.Machine

/-- R193: `t`, the low half plus the low bits of 8·n, with its carry in bit 32. -/
def countLowSum (lo : Word) (n : Nat) : Nat := lo.toNat + (8 * n) % 0x100000000

/-- R193: the new low half. -/
@[irreducible] def countLowAfter (lo : Word) (n : Nat) : Word := BitVec.ofNat 32 (countLowSum lo n)

/-- R193: the new high half, with the upper bits of 8·n and the carry. -/
@[irreducible] def countHighAfter (lo hi : Word) (n : Nat) : Word :=
  BitVec.ofNat 32 (hi.toNat + n / 0x20000000 + countLowSum lo n / 0x100000000)

/-- R193: the bit count grows by 8·n modulo 2^64, per 32-bit half. -/
def addBitCount (n : Nat) (s : State) : State :=
  { s with countLo := countLowAfter s.countLo n, countHi := countHighAfter s.countLo s.countHi n }

/-- R194, R196: `for j in 0 .. m-1: BUF[start+j] <- B[o+j]`, on the 64 bytes. -/
@[irreducible] def copyBytes (buf : Vector Byte 64) (start : Nat) (B : Nat → Byte) (o m : Nat) : Vector Byte 64 :=
  Vector.ofFn fun k => if start ≤ k.val ∧ k.val < start + m then B (o + (k.val - start)) else buf[k]

/-- R194, R196: the copy into BUF. -/
def copyIntoBuf (start : Nat) (B : Nat → Byte) (o m : Nat) (s : State) : State :=
  { s with buf := copyBytes s.buf start B o m }

/-- R195: k direct windows, at p, p + 64, ... -/
def directWindows (B : Nat → Byte) : Nat → Nat → State → State
  | 0, _, s => s
  | k + 1, p, s => directWindows B k (p + 64) (compress B p s)

/-- R196, R197: the tail is copied and pendingLen becomes index + tail length, which is below 64. -/
def storeTail (index : Nat) (B : Nat → Byte) (p m : Nat) (s : State) : State :=
  { copyIntoBuf index B p m s with pendingLen := Fin.ofNat 64 (index + m) }

/-- R194: BUF is filled to 64 bytes and compressed. -/
def fillAndCompress (index : Nat) (B : Nat → Byte) (o : Nat) (s : State) : State :=
  let t := copyIntoBuf index B o (64 - index) s
  compress t.bufByte 0 t

/-- R195: how many direct windows follow the first block. -/
def directCount (index n : Nat) : Nat := (n - (64 - index)) / 64

/-- R194, R195: how many bytes of the window the block path has consumed when it comes to the tail, `i` of R191. -/
def blockBytes (index n : Nat) : Nat := (64 - index) + 64 * directCount index n

/-- R194 to R197: the block path. -/
def blockPath (index : Nat) (B : Nat → Byte) (o n : Nat) (s : State) : State :=
  storeTail 0 B (o + blockBytes index n) (n - blockBytes index n)
    (directWindows B (directCount index n) (o + (64 - index)) (fillAndCompress index B o s))

/-- R191: UPDATE_CORE(B, o, n); `index` is pendingLen as it stood when the command began (R192). -/
def updateCore (B : Nat → Byte) (o n : Nat) (s : State) : State :=
  if 64 ≤ s.pendingLen.val + n then blockPath s.pendingLen.val B o n (addBitCount n s)
  else storeTail s.pendingLen.val B o n (addBitCount n s)

end Sys2Proof.Machine
end

