-- ==== Sys2Proof/Machine/Finalize.lean ====
section
/-! DEFINITION. FINALIZE (44_finalize.md). -/

namespace Sys2Proof.Machine

/-- R212: the padding fed through UPDATE_CORE. -/
def feedPadding (s : State) : State :=
  let padLen := padLength s.bytePosition
  updateCore (listByte (padBytes padLen)) 0 padLen s

/-- R213: the 8-byte length field fed through UPDATE_CORE. -/
def feedLengthField (lenf : List Byte) (s : State) : State := updateCore (listByte lenf) 0 8 s

/-- R215: `DIGEST[0..15] <- ENCODE(S)`. -/
def serializeDigest (s : State) : State := { s with digest := s.stateBytes }

/-- R210: FINALIZE, steps 1 to 6. The length field is captured before the padding is counted (R211). -/
def execFinalize (s : State) : Host.Outcome State Fault Refusal :=
  if s.fault then .next (refuse s)
  else
    let lenf := s.lengthField
    let t := serializeDigest (feedLengthField lenf (feedPadding s))
    .next (respondDigest { contextReset t with phase := .initialized })

end Sys2Proof.Machine
end

