-- ==== Sys2Proof/Machine/Initialize.lean ====
section
/-! DEFINITION. INIT (42_initialize.md). -/

namespace Sys2Proof.Machine

/-- R180: INIT. -/
def execInit (s : State) : Host.Outcome State Fault Refusal :=
  if s.fault then .next (refuse s)
  else .next (respond .ok { clearDigest (contextReset s) with phase := .initialized })

end Sys2Proof.Machine
end

