-- ==== Sys2Proof/Machine/Round1.lean ====
section
/-! DEFINITION. The 16 steps of round 1 (41_compression.md section 3): one meaning per micro-operation, each the row of
30_encoding.md R88 given to the shared step of R117. -/

namespace Sys2Proof.Machine

/-- R120: `a <- rotl32(a +32 F(b, c, d) +32 X[0], 3)`, SC = 0. -/
def execStepR1_00 (s : State) : Host.Outcome State Fault Refusal :=
  .next (microStep 0 .a .b .c .d roundF 0 0x00000000#32 3 s)

/-- R121: `d <- rotl32(d +32 F(a, b, c) +32 X[1], 7)`, SC = 1. -/
def execStepR1_01 (s : State) : Host.Outcome State Fault Refusal :=
  .next (microStep 1 .d .a .b .c roundF 1 0x00000000#32 7 s)

/-- R122: `c <- rotl32(c +32 F(d, a, b) +32 X[2], 11)`, SC = 2. -/
def execStepR1_02 (s : State) : Host.Outcome State Fault Refusal :=
  .next (microStep 2 .c .d .a .b roundF 2 0x00000000#32 11 s)

/-- R123: `b <- rotl32(b +32 F(c, d, a) +32 X[3], 19)`, SC = 3. -/
def execStepR1_03 (s : State) : Host.Outcome State Fault Refusal :=
  .next (microStep 3 .b .c .d .a roundF 3 0x00000000#32 19 s)

/-- R124: `a <- rotl32(a +32 F(b, c, d) +32 X[4], 3)`, SC = 4. -/
def execStepR1_04 (s : State) : Host.Outcome State Fault Refusal :=
  .next (microStep 4 .a .b .c .d roundF 4 0x00000000#32 3 s)

/-- R125: `d <- rotl32(d +32 F(a, b, c) +32 X[5], 7)`, SC = 5. -/
def execStepR1_05 (s : State) : Host.Outcome State Fault Refusal :=
  .next (microStep 5 .d .a .b .c roundF 5 0x00000000#32 7 s)

/-- R126: `c <- rotl32(c +32 F(d, a, b) +32 X[6], 11)`, SC = 6. -/
def execStepR1_06 (s : State) : Host.Outcome State Fault Refusal :=
  .next (microStep 6 .c .d .a .b roundF 6 0x00000000#32 11 s)

/-- R127: `b <- rotl32(b +32 F(c, d, a) +32 X[7], 19)`, SC = 7. -/
def execStepR1_07 (s : State) : Host.Outcome State Fault Refusal :=
  .next (microStep 7 .b .c .d .a roundF 7 0x00000000#32 19 s)

/-- R128: `a <- rotl32(a +32 F(b, c, d) +32 X[8], 3)`, SC = 8. -/
def execStepR1_08 (s : State) : Host.Outcome State Fault Refusal :=
  .next (microStep 8 .a .b .c .d roundF 8 0x00000000#32 3 s)

/-- R129: `d <- rotl32(d +32 F(a, b, c) +32 X[9], 7)`, SC = 9. -/
def execStepR1_09 (s : State) : Host.Outcome State Fault Refusal :=
  .next (microStep 9 .d .a .b .c roundF 9 0x00000000#32 7 s)

/-- R130: `c <- rotl32(c +32 F(d, a, b) +32 X[10], 11)`, SC = 10. -/
def execStepR1_10 (s : State) : Host.Outcome State Fault Refusal :=
  .next (microStep 10 .c .d .a .b roundF 10 0x00000000#32 11 s)

/-- R131: `b <- rotl32(b +32 F(c, d, a) +32 X[11], 19)`, SC = 11. -/
def execStepR1_11 (s : State) : Host.Outcome State Fault Refusal :=
  .next (microStep 11 .b .c .d .a roundF 11 0x00000000#32 19 s)

/-- R132: `a <- rotl32(a +32 F(b, c, d) +32 X[12], 3)`, SC = 12. -/
def execStepR1_12 (s : State) : Host.Outcome State Fault Refusal :=
  .next (microStep 12 .a .b .c .d roundF 12 0x00000000#32 3 s)

/-- R133: `d <- rotl32(d +32 F(a, b, c) +32 X[13], 7)`, SC = 13. -/
def execStepR1_13 (s : State) : Host.Outcome State Fault Refusal :=
  .next (microStep 13 .d .a .b .c roundF 13 0x00000000#32 7 s)

/-- R134: `c <- rotl32(c +32 F(d, a, b) +32 X[14], 11)`, SC = 14. -/
def execStepR1_14 (s : State) : Host.Outcome State Fault Refusal :=
  .next (microStep 14 .c .d .a .b roundF 14 0x00000000#32 11 s)

/-- R135: `b <- rotl32(b +32 F(c, d, a) +32 X[15], 19)`, SC = 15. -/
def execStepR1_15 (s : State) : Host.Outcome State Fault Refusal :=
  .next (microStep 15 .b .c .d .a roundF 15 0x00000000#32 19 s)

end Sys2Proof.Machine
end

