-- ==== Sys2Proof/Machine/Round2.lean ====
section
/-! DEFINITION. The 16 steps of round 2 (41_compression.md section 3): one meaning per micro-operation, each the row of
30_encoding.md R88 given to the shared step of R117. -/

namespace Sys2Proof.Machine

/-- R136: `a <- rotl32(a +32 G(b, c, d) +32 X[0] +32 0x5a827999, 3)`, SC = 16. -/
def execStepR2_00 (s : State) : Host.Outcome State Fault Refusal :=
  .next (microStep 16 .a .b .c .d roundG 0 0x5a827999#32 3 s)

/-- R137: `d <- rotl32(d +32 G(a, b, c) +32 X[4] +32 0x5a827999, 5)`, SC = 17. -/
def execStepR2_01 (s : State) : Host.Outcome State Fault Refusal :=
  .next (microStep 17 .d .a .b .c roundG 4 0x5a827999#32 5 s)

/-- R138: `c <- rotl32(c +32 G(d, a, b) +32 X[8] +32 0x5a827999, 9)`, SC = 18. -/
def execStepR2_02 (s : State) : Host.Outcome State Fault Refusal :=
  .next (microStep 18 .c .d .a .b roundG 8 0x5a827999#32 9 s)

/-- R139: `b <- rotl32(b +32 G(c, d, a) +32 X[12] +32 0x5a827999, 13)`, SC = 19. -/
def execStepR2_03 (s : State) : Host.Outcome State Fault Refusal :=
  .next (microStep 19 .b .c .d .a roundG 12 0x5a827999#32 13 s)

/-- R140: `a <- rotl32(a +32 G(b, c, d) +32 X[1] +32 0x5a827999, 3)`, SC = 20. -/
def execStepR2_04 (s : State) : Host.Outcome State Fault Refusal :=
  .next (microStep 20 .a .b .c .d roundG 1 0x5a827999#32 3 s)

/-- R141: `d <- rotl32(d +32 G(a, b, c) +32 X[5] +32 0x5a827999, 5)`, SC = 21. -/
def execStepR2_05 (s : State) : Host.Outcome State Fault Refusal :=
  .next (microStep 21 .d .a .b .c roundG 5 0x5a827999#32 5 s)

/-- R142: `c <- rotl32(c +32 G(d, a, b) +32 X[9] +32 0x5a827999, 9)`, SC = 22. -/
def execStepR2_06 (s : State) : Host.Outcome State Fault Refusal :=
  .next (microStep 22 .c .d .a .b roundG 9 0x5a827999#32 9 s)

/-- R143: `b <- rotl32(b +32 G(c, d, a) +32 X[13] +32 0x5a827999, 13)`, SC = 23. -/
def execStepR2_07 (s : State) : Host.Outcome State Fault Refusal :=
  .next (microStep 23 .b .c .d .a roundG 13 0x5a827999#32 13 s)

/-- R144: `a <- rotl32(a +32 G(b, c, d) +32 X[2] +32 0x5a827999, 3)`, SC = 24. -/
def execStepR2_08 (s : State) : Host.Outcome State Fault Refusal :=
  .next (microStep 24 .a .b .c .d roundG 2 0x5a827999#32 3 s)

/-- R145: `d <- rotl32(d +32 G(a, b, c) +32 X[6] +32 0x5a827999, 5)`, SC = 25. -/
def execStepR2_09 (s : State) : Host.Outcome State Fault Refusal :=
  .next (microStep 25 .d .a .b .c roundG 6 0x5a827999#32 5 s)

/-- R146: `c <- rotl32(c +32 G(d, a, b) +32 X[10] +32 0x5a827999, 9)`, SC = 26. -/
def execStepR2_10 (s : State) : Host.Outcome State Fault Refusal :=
  .next (microStep 26 .c .d .a .b roundG 10 0x5a827999#32 9 s)

/-- R147: `b <- rotl32(b +32 G(c, d, a) +32 X[14] +32 0x5a827999, 13)`, SC = 27. -/
def execStepR2_11 (s : State) : Host.Outcome State Fault Refusal :=
  .next (microStep 27 .b .c .d .a roundG 14 0x5a827999#32 13 s)

/-- R148: `a <- rotl32(a +32 G(b, c, d) +32 X[3] +32 0x5a827999, 3)`, SC = 28. -/
def execStepR2_12 (s : State) : Host.Outcome State Fault Refusal :=
  .next (microStep 28 .a .b .c .d roundG 3 0x5a827999#32 3 s)

/-- R149: `d <- rotl32(d +32 G(a, b, c) +32 X[7] +32 0x5a827999, 5)`, SC = 29. -/
def execStepR2_13 (s : State) : Host.Outcome State Fault Refusal :=
  .next (microStep 29 .d .a .b .c roundG 7 0x5a827999#32 5 s)

/-- R150: `c <- rotl32(c +32 G(d, a, b) +32 X[11] +32 0x5a827999, 9)`, SC = 30. -/
def execStepR2_14 (s : State) : Host.Outcome State Fault Refusal :=
  .next (microStep 30 .c .d .a .b roundG 11 0x5a827999#32 9 s)

/-- R151: `b <- rotl32(b +32 G(c, d, a) +32 X[15] +32 0x5a827999, 13)`, SC = 31. -/
def execStepR2_15 (s : State) : Host.Outcome State Fault Refusal :=
  .next (microStep 31 .b .c .d .a roundG 15 0x5a827999#32 13 s)

end Sys2Proof.Machine
end

