-- ==== Sys2Proof/Machine/Round3.lean ====
section
/-! DEFINITION. The 16 steps of round 3 (41_compression.md section 3): one meaning per micro-operation, each the row of
30_encoding.md R88 given to the shared step of R117. -/

namespace Sys2Proof.Machine

/-- R152: `a <- rotl32(a +32 H(b, c, d) +32 X[0] +32 0x6ed9eba1, 3)`, SC = 32. -/
def execStepR3_00 (s : State) : Host.Outcome State Fault Refusal :=
  .next (microStep 32 .a .b .c .d roundH 0 0x6ed9eba1#32 3 s)

/-- R153: `d <- rotl32(d +32 H(a, b, c) +32 X[8] +32 0x6ed9eba1, 9)`, SC = 33. -/
def execStepR3_01 (s : State) : Host.Outcome State Fault Refusal :=
  .next (microStep 33 .d .a .b .c roundH 8 0x6ed9eba1#32 9 s)

/-- R154: `c <- rotl32(c +32 H(d, a, b) +32 X[4] +32 0x6ed9eba1, 11)`, SC = 34. -/
def execStepR3_02 (s : State) : Host.Outcome State Fault Refusal :=
  .next (microStep 34 .c .d .a .b roundH 4 0x6ed9eba1#32 11 s)

/-- R155: `b <- rotl32(b +32 H(c, d, a) +32 X[12] +32 0x6ed9eba1, 15)`, SC = 35. -/
def execStepR3_03 (s : State) : Host.Outcome State Fault Refusal :=
  .next (microStep 35 .b .c .d .a roundH 12 0x6ed9eba1#32 15 s)

/-- R156: `a <- rotl32(a +32 H(b, c, d) +32 X[2] +32 0x6ed9eba1, 3)`, SC = 36. -/
def execStepR3_04 (s : State) : Host.Outcome State Fault Refusal :=
  .next (microStep 36 .a .b .c .d roundH 2 0x6ed9eba1#32 3 s)

/-- R157: `d <- rotl32(d +32 H(a, b, c) +32 X[10] +32 0x6ed9eba1, 9)`, SC = 37. -/
def execStepR3_05 (s : State) : Host.Outcome State Fault Refusal :=
  .next (microStep 37 .d .a .b .c roundH 10 0x6ed9eba1#32 9 s)

/-- R158: `c <- rotl32(c +32 H(d, a, b) +32 X[6] +32 0x6ed9eba1, 11)`, SC = 38. -/
def execStepR3_06 (s : State) : Host.Outcome State Fault Refusal :=
  .next (microStep 38 .c .d .a .b roundH 6 0x6ed9eba1#32 11 s)

/-- R159: `b <- rotl32(b +32 H(c, d, a) +32 X[14] +32 0x6ed9eba1, 15)`, SC = 39. -/
def execStepR3_07 (s : State) : Host.Outcome State Fault Refusal :=
  .next (microStep 39 .b .c .d .a roundH 14 0x6ed9eba1#32 15 s)

/-- R160: `a <- rotl32(a +32 H(b, c, d) +32 X[1] +32 0x6ed9eba1, 3)`, SC = 40. -/
def execStepR3_08 (s : State) : Host.Outcome State Fault Refusal :=
  .next (microStep 40 .a .b .c .d roundH 1 0x6ed9eba1#32 3 s)

/-- R161: `d <- rotl32(d +32 H(a, b, c) +32 X[9] +32 0x6ed9eba1, 9)`, SC = 41. -/
def execStepR3_09 (s : State) : Host.Outcome State Fault Refusal :=
  .next (microStep 41 .d .a .b .c roundH 9 0x6ed9eba1#32 9 s)

/-- R162: `c <- rotl32(c +32 H(d, a, b) +32 X[5] +32 0x6ed9eba1, 11)`, SC = 42. -/
def execStepR3_10 (s : State) : Host.Outcome State Fault Refusal :=
  .next (microStep 42 .c .d .a .b roundH 5 0x6ed9eba1#32 11 s)

/-- R163: `b <- rotl32(b +32 H(c, d, a) +32 X[13] +32 0x6ed9eba1, 15)`, SC = 43. -/
def execStepR3_11 (s : State) : Host.Outcome State Fault Refusal :=
  .next (microStep 43 .b .c .d .a roundH 13 0x6ed9eba1#32 15 s)

/-- R164: `a <- rotl32(a +32 H(b, c, d) +32 X[3] +32 0x6ed9eba1, 3)`, SC = 44. -/
def execStepR3_12 (s : State) : Host.Outcome State Fault Refusal :=
  .next (microStep 44 .a .b .c .d roundH 3 0x6ed9eba1#32 3 s)

/-- R165: `d <- rotl32(d +32 H(a, b, c) +32 X[11] +32 0x6ed9eba1, 9)`, SC = 45. -/
def execStepR3_13 (s : State) : Host.Outcome State Fault Refusal :=
  .next (microStep 45 .d .a .b .c roundH 11 0x6ed9eba1#32 9 s)

/-- R166: `c <- rotl32(c +32 H(d, a, b) +32 X[7] +32 0x6ed9eba1, 11)`, SC = 46. -/
def execStepR3_14 (s : State) : Host.Outcome State Fault Refusal :=
  .next (microStep 46 .c .d .a .b roundH 7 0x6ed9eba1#32 11 s)

/-- R167: `b <- rotl32(b +32 H(c, d, a) +32 X[15] +32 0x6ed9eba1, 15)`, SC = 47. -/
def execStepR3_15 (s : State) : Host.Outcome State Fault Refusal :=
  .next (microStep 47 .b .c .d .a roundH 15 0x6ed9eba1#32 15 s)

end Sys2Proof.Machine
end

