-- ==== Sys2Proof/Machine/Update.lean ====
section
/-! DEFINITION. UPDATE (43_update.md). -/

namespace Sys2Proof.Machine

/-- R190: UPDATE; the checks in the order of R238. -/
def execUpdate (off len : Nat) (s : State) : Host.Outcome State Fault Refusal :=
  if s.fault then .next (refuse s)
  else if s.outOfBounds off len then .next (raiseFault .bounds s)
  else .next (respond .ok { updateCore s.srcByte off len s with phase := .updating })

end Sys2Proof.Machine
end

