-- ==== Sys2Proof/Machine/Dispatch.lean ====
section
/-! DEFINITION. exec: one arm per instruction. -/

namespace Sys2Proof.Machine

-- What one instruction does to the state (30_encoding.md R72, R88).
def exec (i : Instr) (s : State) : Host.Outcome State Fault Refusal :=
  match i with
  | .init => Sys2Proof.Machine.execInit s
  | .update off len => Sys2Proof.Machine.execUpdate off len s
  | .finalize => Sys2Proof.Machine.execFinalize s
  | .stepR1_00 => Sys2Proof.Machine.execStepR1_00 s
  | .stepR1_01 => Sys2Proof.Machine.execStepR1_01 s
  | .stepR1_02 => Sys2Proof.Machine.execStepR1_02 s
  | .stepR1_03 => Sys2Proof.Machine.execStepR1_03 s
  | .stepR1_04 => Sys2Proof.Machine.execStepR1_04 s
  | .stepR1_05 => Sys2Proof.Machine.execStepR1_05 s
  | .stepR1_06 => Sys2Proof.Machine.execStepR1_06 s
  | .stepR1_07 => Sys2Proof.Machine.execStepR1_07 s
  | .stepR1_08 => Sys2Proof.Machine.execStepR1_08 s
  | .stepR1_09 => Sys2Proof.Machine.execStepR1_09 s
  | .stepR1_10 => Sys2Proof.Machine.execStepR1_10 s
  | .stepR1_11 => Sys2Proof.Machine.execStepR1_11 s
  | .stepR1_12 => Sys2Proof.Machine.execStepR1_12 s
  | .stepR1_13 => Sys2Proof.Machine.execStepR1_13 s
  | .stepR1_14 => Sys2Proof.Machine.execStepR1_14 s
  | .stepR1_15 => Sys2Proof.Machine.execStepR1_15 s
  | .stepR2_00 => Sys2Proof.Machine.execStepR2_00 s
  | .stepR2_01 => Sys2Proof.Machine.execStepR2_01 s
  | .stepR2_02 => Sys2Proof.Machine.execStepR2_02 s
  | .stepR2_03 => Sys2Proof.Machine.execStepR2_03 s
  | .stepR2_04 => Sys2Proof.Machine.execStepR2_04 s
  | .stepR2_05 => Sys2Proof.Machine.execStepR2_05 s
  | .stepR2_06 => Sys2Proof.Machine.execStepR2_06 s
  | .stepR2_07 => Sys2Proof.Machine.execStepR2_07 s
  | .stepR2_08 => Sys2Proof.Machine.execStepR2_08 s
  | .stepR2_09 => Sys2Proof.Machine.execStepR2_09 s
  | .stepR2_10 => Sys2Proof.Machine.execStepR2_10 s
  | .stepR2_11 => Sys2Proof.Machine.execStepR2_11 s
  | .stepR2_12 => Sys2Proof.Machine.execStepR2_12 s
  | .stepR2_13 => Sys2Proof.Machine.execStepR2_13 s
  | .stepR2_14 => Sys2Proof.Machine.execStepR2_14 s
  | .stepR2_15 => Sys2Proof.Machine.execStepR2_15 s
  | .stepR3_00 => Sys2Proof.Machine.execStepR3_00 s
  | .stepR3_01 => Sys2Proof.Machine.execStepR3_01 s
  | .stepR3_02 => Sys2Proof.Machine.execStepR3_02 s
  | .stepR3_03 => Sys2Proof.Machine.execStepR3_03 s
  | .stepR3_04 => Sys2Proof.Machine.execStepR3_04 s
  | .stepR3_05 => Sys2Proof.Machine.execStepR3_05 s
  | .stepR3_06 => Sys2Proof.Machine.execStepR3_06 s
  | .stepR3_07 => Sys2Proof.Machine.execStepR3_07 s
  | .stepR3_08 => Sys2Proof.Machine.execStepR3_08 s
  | .stepR3_09 => Sys2Proof.Machine.execStepR3_09 s
  | .stepR3_10 => Sys2Proof.Machine.execStepR3_10 s
  | .stepR3_11 => Sys2Proof.Machine.execStepR3_11 s
  | .stepR3_12 => Sys2Proof.Machine.execStepR3_12 s
  | .stepR3_13 => Sys2Proof.Machine.execStepR3_13 s
  | .stepR3_14 => Sys2Proof.Machine.execStepR3_14 s
  | .stepR3_15 => Sys2Proof.Machine.execStepR3_15 s
  | .feedforward => Sys2Proof.Machine.execFeedForward s

end Sys2Proof.Machine
end

