-- ==== Sys2Proof/WellFormed.lean ====
section
/-! DEFINITION. When an instruction, a host event or an assembler line is well formed: its numbers are in the range the
spec gives them. -/

namespace Sys2Proof

/-- R75: OFF and LEN are unsigned integers 0 to 2^32 - 1. The other instructions have no operand. -/
def Instr.wf : Instr → Bool
  | .update off len => decide (off < 0x100000000) && decide (len < 0x100000000)
  | _ => true

/-- R9: SRC_SIZE is 0 to 2^32 - 1. -/
def HostEvent.wf : HostEvent → Bool
  | .src bytes => decide (bytes.length < 0x100000000)
  | _ => true

/-- R89: every number of a line fits the 32-bit word it is written to, and a source window fits SRC_SIZE. -/
def Line.wf : Line → Bool
  | .update off len => decide (off < 0x100000000) && decide (len < 0x100000000)
  | .src bytes => decide (bytes.length < 0x100000000)
  | .word w => decide (w < 0x100000000)
  | .hash len => decide (len < 0x100000000)
  | _ => true

end Sys2Proof
end

