-- ==== Sys2Proof/Decode.lean ====
section
/-! DEFINITION. The decoder and the encoder (30_encoding.md R71 to R76, R85 to R88): command words on CMD, and the value of
SC for the micro-operations of a compression. Both are total; what is no instruction is rejected by name. -/

namespace Sys2Proof

/-- Why an encoding is no instruction. -/
inductive Reject where
  /-- A header whose RSVD field (bits 31:8) is not 0 (R76). -/
  | reservedBits
  /-- A header whose OPC is 0x00 or 0x04 to 0xFF (R76). -/
  | reservedOpcode (opc : BitVec 8)
  /-- SC = 49 to 63 (R87). -/
  | unreachableStep
  /-- Fewer words than the header's length (R74). -/
  | missingWords
deriving DecidableEq, Repr

/-- What the decoder reads from the words at the front of CMD. -/
inductive Decoded where
  /-- A whole command, and the words after it. -/
  | command (i : Instr) (rest : List Word)
  /-- An illegal header, which is one word long (R74), and the words after it. -/
  | illegal (why : Reject) (rest : List Word)
  /-- The command's words have not all arrived. -/
  | incomplete
deriving DecidableEq, Repr

/-- OPC, header bits 7:0 (R71). -/
def headerOpc (h : Word) : BitVec 8 := h.extractLsb' 0 8

/-- RSVD, header bits 31:8 (R71). -/
def headerRsvd (h : Word) : BitVec 24 := h.extractLsb' 8 24

/-- R74: how many words a command with this header has. -/
def commandLength (h : Word) : Nat :=
  if headerRsvd h = 0#24 ∧ headerOpc h = 0x02#8 then 3 else 1

/-- The command decoder (R71 to R76). -/
def decodeCommand : List Word → Decoded
  | [] => .incomplete
  | h :: ws =>
    if headerRsvd h ≠ 0#24 then .illegal .reservedBits ws
    else if headerOpc h = 0x01#8 then .command .init ws
    else if headerOpc h = 0x02#8 then
      match ws with
      | off :: len :: rest => .command (.update off.toNat len.toNat) rest
      | _ => .incomplete
    else if headerOpc h = 0x03#8 then .command .finalize ws
    else .illegal (.reservedOpcode (headerOpc h)) ws

/-- The micro-operation a value of SC selects (R88); none for the values 49 to 63 that have no meaning (R87). -/
def decodeMicro (sc : BitVec 6) : Option Instr :=
  match sc.toNat with
  | 0 => some .stepR1_00
  | 1 => some .stepR1_01
  | 2 => some .stepR1_02
  | 3 => some .stepR1_03
  | 4 => some .stepR1_04
  | 5 => some .stepR1_05
  | 6 => some .stepR1_06
  | 7 => some .stepR1_07
  | 8 => some .stepR1_08
  | 9 => some .stepR1_09
  | 10 => some .stepR1_10
  | 11 => some .stepR1_11
  | 12 => some .stepR1_12
  | 13 => some .stepR1_13
  | 14 => some .stepR1_14
  | 15 => some .stepR1_15
  | 16 => some .stepR2_00
  | 17 => some .stepR2_01
  | 18 => some .stepR2_02
  | 19 => some .stepR2_03
  | 20 => some .stepR2_04
  | 21 => some .stepR2_05
  | 22 => some .stepR2_06
  | 23 => some .stepR2_07
  | 24 => some .stepR2_08
  | 25 => some .stepR2_09
  | 26 => some .stepR2_10
  | 27 => some .stepR2_11
  | 28 => some .stepR2_12
  | 29 => some .stepR2_13
  | 30 => some .stepR2_14
  | 31 => some .stepR2_15
  | 32 => some .stepR3_00
  | 33 => some .stepR3_01
  | 34 => some .stepR3_02
  | 35 => some .stepR3_03
  | 36 => some .stepR3_04
  | 37 => some .stepR3_05
  | 38 => some .stepR3_06
  | 39 => some .stepR3_07
  | 40 => some .stepR3_08
  | 41 => some .stepR3_09
  | 42 => some .stepR3_10
  | 43 => some .stepR3_11
  | 44 => some .stepR3_12
  | 45 => some .stepR3_13
  | 46 => some .stepR3_14
  | 47 => some .stepR3_15
  | 48 => some .feedforward
  | _ => none

/-- An instruction's encoding: words on CMD for a command, a value of SC for a micro-operation. -/
inductive Encoded where
  | command (ws : List Word)
  | micro (sc : BitVec 6)
deriving DecidableEq, Repr

/-- The encoding of an instruction (R72, R73, R88). -/
def encode : Instr → Encoded
  | .init => .command [0x00000001#32]
  | .update off len => .command [0x00000002#32, BitVec.ofNat 32 off, BitVec.ofNat 32 len]
  | .finalize => .command [0x00000003#32]
  | .stepR1_00 => .micro 0x00#6
  | .stepR1_01 => .micro 0x01#6
  | .stepR1_02 => .micro 0x02#6
  | .stepR1_03 => .micro 0x03#6
  | .stepR1_04 => .micro 0x04#6
  | .stepR1_05 => .micro 0x05#6
  | .stepR1_06 => .micro 0x06#6
  | .stepR1_07 => .micro 0x07#6
  | .stepR1_08 => .micro 0x08#6
  | .stepR1_09 => .micro 0x09#6
  | .stepR1_10 => .micro 0x0a#6
  | .stepR1_11 => .micro 0x0b#6
  | .stepR1_12 => .micro 0x0c#6
  | .stepR1_13 => .micro 0x0d#6
  | .stepR1_14 => .micro 0x0e#6
  | .stepR1_15 => .micro 0x0f#6
  | .stepR2_00 => .micro 0x10#6
  | .stepR2_01 => .micro 0x11#6
  | .stepR2_02 => .micro 0x12#6
  | .stepR2_03 => .micro 0x13#6
  | .stepR2_04 => .micro 0x14#6
  | .stepR2_05 => .micro 0x15#6
  | .stepR2_06 => .micro 0x16#6
  | .stepR2_07 => .micro 0x17#6
  | .stepR2_08 => .micro 0x18#6
  | .stepR2_09 => .micro 0x19#6
  | .stepR2_10 => .micro 0x1a#6
  | .stepR2_11 => .micro 0x1b#6
  | .stepR2_12 => .micro 0x1c#6
  | .stepR2_13 => .micro 0x1d#6
  | .stepR2_14 => .micro 0x1e#6
  | .stepR2_15 => .micro 0x1f#6
  | .stepR3_00 => .micro 0x20#6
  | .stepR3_01 => .micro 0x21#6
  | .stepR3_02 => .micro 0x22#6
  | .stepR3_03 => .micro 0x23#6
  | .stepR3_04 => .micro 0x24#6
  | .stepR3_05 => .micro 0x25#6
  | .stepR3_06 => .micro 0x26#6
  | .stepR3_07 => .micro 0x27#6
  | .stepR3_08 => .micro 0x28#6
  | .stepR3_09 => .micro 0x29#6
  | .stepR3_10 => .micro 0x2a#6
  | .stepR3_11 => .micro 0x2b#6
  | .stepR3_12 => .micro 0x2c#6
  | .stepR3_13 => .micro 0x2d#6
  | .stepR3_14 => .micro 0x2e#6
  | .stepR3_15 => .micro 0x2f#6
  | .feedforward => .micro 0x30#6

/-- The decoder on either kind of encoding. -/
def decode : Encoded → Except Reject Instr
  | .command ws =>
    match decodeCommand ws with
    | .command i _ => .ok i
    | .illegal why _ => .error why
    | .incomplete => .error .missingWords
  | .micro sc =>
    match decodeMicro sc with
    | some i => .ok i
    | none => .error .unreachableStep

/-- The words on CMD of a command (none for a micro-operation, which is no command: R85). -/
def commandWords (i : Instr) : List Word :=
  match encode i with
  | .command ws => ws
  | .micro _ => []

/-- The three words a number holds, the first in its low bits. -/
def wordsOfNat (w : Nat) : List Word :=
  [BitVec.ofNat 32 w, BitVec.ofNat 32 (w / 0x100000000), BitVec.ofNat 32 (w / 0x10000000000000000)]

/-- The instruction the decoder reads from a row of spec/opcode_table.json: a row of at most 8 bits is a value of the
6-bit SC (R91), a longer one is command words, those past the row being 0. -/
def decodeTableWord (nbits w : Nat) : Option Instr :=
  if nbits ≤ 8 then
    if w < 64 then decodeMicro (BitVec.ofNat 6 w) else none
  else
    match decodeCommand (wordsOfNat w) with
    | .command i _ => some i
    | _ => none

end Sys2Proof
end

