-- ==== Sys2Proof/Machine/Fetch.lean ====
section
/-! DEFINITION. What the machine does next: the micro-operation SC selects while a compression runs (R85), else the oldest
thing at its inputs (R70). Command words are received one at a time, in order (R74). -/

namespace Sys2Proof.Machine

/-- What reception of command words comes to. -/
inductive Received where
  /-- A whole command, and the inputs after it. -/
  | command (i : Instr) (inbox : List HostEvent)
  /-- An illegal header, and the inputs after it. -/
  | illegal (inbox : List HostEvent)
  /-- The words received so far of a command that lacks some, and the inputs after them. -/
  | waiting (rx : List Word) (inbox : List HostEvent)
deriving DecidableEq, Repr

/-- R74, R70: words are taken from CMD one at a time until they spell a command or an illegal header. -/
def receive (rx : List Word) : List HostEvent → Received
  | [] => .waiting rx []
  | .src bytes :: evs => .waiting rx (.src bytes :: evs)
  | .rst :: evs => .waiting rx (.rst :: evs)
  | .word w :: evs =>
    match decodeCommand (rx ++ [w]) with
    | .command i rest => .command i (rest.map .word ++ evs)
    | .illegal _ rest => .illegal (rest.map .word ++ evs)
    | .incomplete => receive (rx ++ [w]) evs

/-- The next transition. -/
inductive Fetched where
  /-- Run this instruction on this state. -/
  | run (i : Instr) (s : State)
  /-- No instruction: the transition leads to this state. -/
  | done (s : State)
  /-- SC has a value with no meaning (R87). -/
  | stuck (sc : BitVec 6)
  /-- The host presents a window larger than SRC_SIZE can say (R9). -/
  | sourceTooLarge
deriving DecidableEq, Repr

/-- What the machine does next. With nothing at its inputs it holds its state (R250); RST (R260) and a new source window
take effect between commands (R83). -/
def fetch (s : State) : Fetched :=
  if s.compressing then
    match decodeMicro s.sc with
    | some i => .run i (clearResponse s)
    | none => .stuck s.sc
  else
    match s.inbox with
    | [] => .done (clearResponse s)
    | .rst :: evs => .done (hardwareReset { s with inbox := evs })
    | .src bytes :: evs =>
      if bytes.length < 0x100000000 then .done (presentSource bytes (clearResponse { s with inbox := evs }))
      else .sourceTooLarge
    | .word w :: evs =>
      match receive s.rx (.word w :: evs) with
      | .command i inbox => .run i (clearResponse { s with rx := [], inbox := inbox })
      | .illegal inbox => .done (illegalCommand (clearResponse { s with rx := [], inbox := inbox }))
      | .waiting rx inbox => .done (clearResponse { s with rx := rx, inbox := inbox })

/-- R74, R91: the CMD words of one opcode-table row given as a number, as many as its header says. -/
def tableCommandWords (w : Nat) : List Word :=
  (wordsOfNat w).take (commandLength (BitVec.ofNat 32 w))

end Sys2Proof.Machine
end

