-- ==== Sys2Proof/Machine/Step.lean ====
section
/-! DEFINITION. One transition of the machine, and the placing of one instruction where it fetches. -/

namespace Sys2Proof.Machine

/-- One transition (30_encoding.md R84, R85). -/
def step (s : State) : Host.Outcome State Fault Refusal :=
  match fetch s with
  | .run i t => exec i t
  | .done t => .next t
  | .stuck sc => .fault (.stuckStepCounter sc)
  | .sourceTooLarge => .refused .sourceTooLarge

/-- A row of spec/opcode_table.json placed where `step` fetches next: a value of SC in a running compression for a
micro-operation, words at the head of CMD between commands (where SC is 0, R29) for a command. Log 11. -/
def State.withFetchWord (s : State) (nbits w : Nat) : State :=
  if nbits ≤ 8 then { s with compressing := true, sc := BitVec.ofNat 6 w }
  else
    { s with
      compressing := false
      sc := 0#6
      rx := []
      inbox := (tableCommandWords w).map .word ++ s.inbox }

end Sys2Proof.Machine
end

