-- ==== Sys2Proof/Machine/Assembler.lean ====
section
/-! DEFINITION. The spec's assembler (30_encoding.md R89, R90): a line of text to a `Line`, and lines to what they put on the
machine's inputs. It is notation for programs; no instruction's meaning depends on it. Log 22. -/

namespace Sys2Proof.Machine

/-- Blanks between the parts of a line. -/
def isBlank (c : Char) : Bool := c.toNat == 32 || c.toNat == 9

def skipBlanks (cs : List Char) : List Char := cs.dropWhile isBlank

/-- R89: nothing but blanks or a `;` comment is left. -/
def atLineEnd (cs : List Char) : Bool :=
  match skipBlanks cs with
  | [] => true
  | c :: _ => c.toNat == 59

/-- R89: mnemonics are case-insensitive. -/
def lowerCode (c : Char) : Nat := if 65 ≤ c.toNat ∧ c.toNat ≤ 90 then c.toNat + 32 else c.toNat

/-- Letters, `.` and `_`: what a mnemonic or directive is made of. -/
def isNameChar (c : Char) : Bool :=
  (97 ≤ lowerCode c && lowerCode c ≤ 122) || c.toNat == 46 || c.toNat == 95

/-- The value of a digit in base 10 or 16. -/
def digitValue (base : Nat) (c : Char) : Option Nat :=
  let n := lowerCode c
  if 48 ≤ n ∧ n ≤ 57 then some (n - 48)
  else if base = 16 ∧ 97 ≤ n ∧ n ≤ 102 then some (n - 87)
  else none

/-- The digits at the front: how many, their value, and what follows. -/
def takeDigits (base : Nat) : Nat → Nat → List Char → Nat × Nat × List Char
  | k, v, [] => (k, v, [])
  | k, v, c :: cs =>
    match digitValue base c with
    | some d => takeDigits base (k + 1) (base * v + d) cs
    | none => (k, v, c :: cs)

/-- At least one digit in this base. -/
def parseDigits (base : Nat) (cs : List Char) : Option (Nat × List Char) :=
  match takeDigits base 0 0 cs with
  | (0, _, _) => none
  | (_, v, rest) => some (v, rest)

/-- R89: a decimal or `0x`-prefixed hexadecimal number. -/
def parseNumber (cs : List Char) : Option (Nat × List Char) :=
  match skipBlanks cs with
  | z :: x :: rest => if z.toNat = 48 ∧ lowerCode x = 120 then parseDigits 16 rest else parseDigits 10 (z :: x :: rest)
  | rest => parseDigits 10 rest

/-- R89: the number of `.word`, hexadecimal with or without `0x`. -/
def parseHexWord (cs : List Char) : Option (Nat × List Char) :=
  match skipBlanks cs with
  | z :: x :: rest => if z.toNat = 48 ∧ lowerCode x = 120 then parseDigits 16 rest else parseDigits 16 (z :: x :: rest)
  | rest => parseDigits 16 rest

/-- Pairs of hexadecimal digits up to the first character that is none. -/
def parseHexBytes : List Char → Option (List Byte × List Char)
  | [] => some ([], [])
  | [c] =>
    match digitValue 16 c with
    | some _ => none
    | none => some ([], [c])
  | c :: c' :: cs =>
    match digitValue 16 c, digitValue 16 c' with
    | some h, some l =>
      match parseHexBytes cs with
      | some (bs, rest) => some (BitVec.ofNat 8 (16 * h + l) :: bs, rest)
      | none => none
    | some _, none => none
    | none, _ => some ([], c :: c' :: cs)

/-- The characters up to the closing quote, as ASCII bytes; none where the quote is missing or a character is not ASCII. -/
def parseQuoted : List Char → Option (List Byte × List Char)
  | [] => none
  | c :: cs =>
    if c.toNat = 34 then some ([], cs)
    else if c.toNat < 128 then
      match parseQuoted cs with
      | some (bs, rest) => some (BitVec.ofNat 8 c.toNat :: bs, rest)
      | none => none
    else none

/-- R89: the operand of `.src`, a quoted ASCII string or `hex:0011..`. -/
def parseSource (cs : List Char) : Option (List Byte × List Char) :=
  match skipBlanks cs with
  | [] => none
  | c :: rest =>
    if c.toNat = 34 then parseQuoted rest
    else if ((c :: rest).take 4).map lowerCode = [104, 101, 120, 58] then parseHexBytes (rest.drop 3)
    else none

/-- A well-formed line, if nothing but a comment follows it. -/
def endLine (l : Line) (rest : List Char) : Option Line := if atLineEnd rest && l.wf then some l else none

/-- A line whose operand is one number. -/
def numberLine (mk : Nat → Line) (cs : List Char) : Option Line :=
  match parseNumber cs with
  | some (n, rest) => endLine (mk n) rest
  | none => none

/-- A line whose operands are two numbers with a comma between. -/
def twoNumberLine (mk : Nat → Nat → Line) (cs : List Char) : Option Line :=
  match parseNumber cs with
  | none => none
  | some (m, rest) =>
    match skipBlanks rest with
    | [] => none
    | c :: rest =>
      if c.toNat = 44 then
        match parseNumber rest with
        | some (n, rest) => endLine (mk m n) rest
        | none => none
      else none

/-- R89, R90: one non-empty line of text. The names are written as the codes of their lower-case letters. -/
def parseLine (text : List Char) : Option Line :=
  let cs := skipBlanks text
  let name := (cs.takeWhile isNameChar).map lowerCode
  let rest := cs.dropWhile isNameChar
  if name = [105, 110, 105, 116] then endLine .init rest                              -- init
  else if name = [117, 112, 100, 97, 116, 101] then twoNumberLine .update rest        -- update
  else if name = [102, 105, 110, 97, 108, 105, 122, 101] then endLine .finalize rest  -- finalize
  else if name = [46, 115, 114, 99] then                                              -- .src
    match parseSource rest with
    | some (bs, rest) => endLine (.src bs) rest
    | none => none
  else if name = [46, 119, 111, 114, 100] then                                        -- .word
    match parseHexWord rest with
    | some (n, rest) => endLine (.word n) rest
    | none => none
  else if name = [114, 115, 116] then endLine .rst rest                               -- rst
  else if name = [104, 97, 115, 104] then numberLine .hash rest                       -- hash
  else if name = [117, 112, 100, 97, 116, 101, 95, 97, 108, 108] then endLine .updateAll rest  -- update_all
  else if name = [114, 101, 115, 116, 97, 114, 116] then endLine .restart rest        -- restart
  else none

/-- R89: lines of text to lines; empty and comment lines are left out, and a line that is none makes the program none. -/
def parseProgram : List (List Char) → Option (List Line)
  | [] => some []
  | t :: ts =>
    if atLineEnd t then parseProgram ts
    else
      match parseLine t, parseProgram ts with
      | some l, some ls => some (l :: ls)
      | _, _ => none

/-- R90: what a pseudo-command expands to, given the size of the current `.src`; any other line stands for itself. -/
def expandLine (srcSize : Nat) : Line → List Line
  | .hash len => [.init, .update 0 len, .finalize]
  | .updateAll => [.update 0 srcSize]
  | .restart => [.init]
  | l => [l]

/-- The words of a command, on CMD. -/
def commandEvents (i : Instr) : List HostEvent := (commandWords i).map .word

/-- R89: what a line without pseudo-commands puts on the inputs. -/
def lineEvents : Line → List HostEvent
  | .init => commandEvents .init
  | .update off len => commandEvents (.update off len)
  | .finalize => commandEvents .finalize
  | .src bytes => [.src bytes]
  | .word w => [.word (BitVec.ofNat 32 w)]
  | .rst => [.rst]
  | .hash _ | .updateAll | .restart => []

/-- The size of the current `.src` after a line. -/
def sizeAfter (srcSize : Nat) : Line → Nat
  | .src bytes => bytes.length
  | _ => srcSize

/-- R89, R90: what a program puts on the inputs, from the size of the source presented so far. -/
def assemble (srcSize : Nat) : List Line → List HostEvent
  | [] => []
  | l :: ls => (expandLine srcSize l).flatMap lineEvents ++ assemble (sizeAfter srcSize l) ls

end Sys2Proof.Machine
end

