-- ==== Sys2Proof/Machine/Flags.lean ====
section
/-! DEFINITION. The words the host reads: STATUS (10_state.md R34) and the response word (30_encoding.md R78, R79). MD4CORE
has no other flag (R37). -/

namespace Sys2Proof.Machine

/-- R31: the PHASE bit. -/
def Phase.bit : Phase → BitVec 1
  | .initialized => 0#1
  | .updating => 1#1

/-- R33: the CAUSE field. -/
def Cause.bits : Cause → BitVec 2
  | .none => 0#2
  | .bounds => 1#2
  | .illegal => 2#2

/-- R79: the CODE field. -/
def RspCode.bits : RspCode → BitVec 2
  | .ok => 0#2
  | .boundsFault => 1#2
  | .illegalCommand => 2#2
  | .refused => 3#2

/-- R34: STATUS, continuously driven: FAULT in bit 0, CAUSE in bits 2:1, PHASE in bit 3, zeros above. -/
def State.status (s : State) : Word :=
  (BitVec.ofBool s.fault).setWidth 32 ||| (s.cause.bits.setWidth 32 <<< 1) ||| (s.phase.bit.setWidth 32 <<< 3)

/-- R78: the response word, CODE in bits 1:0 and zeros above. -/
def Response.word (r : Response) : Word := r.code.bits.setWidth 32

end Sys2Proof.Machine
end

