-- ==== Sys2Proof/Machine/Platform.lean ====
section
/-! DEFINITION. A platform of several instances (00_scope.md R9, 10_state.md R36, 60_exceptions.md R248): a list of states
that share nothing, each moving by `step` alone. In which order they move is not fixed (20_memory.md R67): the caller names
the instance that moves. -/

namespace Sys2Proof.Machine

/-- The instances of a platform. -/
structure Platform where
  cores : List State
deriving DecidableEq, Repr

/-- Every instance after its own reset; N_INSTANCES is open (D18). DESIGN CHOICE, log 24 (unsafe): every instance starts with
`freeCount` 0 on the one stream `Config.freeWord`, so after equally many compressions two instances hold provably equal
working registers, where U8 lets each hold any value. -/
def Platform.reset : Platform := ⟨List.replicate Config.nInstances State.reset⟩

/-- Instance k makes one transition; the platform stops as that instance stops. An instance that is not there leaves the
platform as it is. -/
def Platform.stepAt (k : Nat) (p : Platform) : Host.Outcome Platform Fault Refusal :=
  match p.cores[k]? with
  | none => .next p
  | some s =>
    match step s with
    | .next t => .next ⟨p.cores.set k t⟩
    | .fault f => .fault f
    | .refused r => .refused r

end Sys2Proof.Machine
end

