-- ==== Sys2Proof/Safety.lean ====
section
/-! DEFINITION. The terms the claims use: MD4 as a function of a message (44_finalize.md R219), which message a context has
been fed (10_state.md R24), the invariant every step keeps, and the part of the state a refused command must not touch. -/

namespace Sys2Proof.Machine

/-- The chaining state after compressing k 64-byte blocks of a byte source, the first at p (R219: "COMPRESS over its
64-byte blocks in order"). -/
def compressBlocks (B : Nat → Byte) (k p : Nat) (S : Vector Word 4) : Vector Word 4 :=
  (List.range k).foldl (fun S i => compressWords S B (p + 64 * i)) S

/-- The chaining state after every full 64-byte block of a byte string. -/
def absorb (S : Vector Word 4) (M : List Byte) : Vector Word 4 :=
  compressBlocks (listByte M) (M.length / 64) 0 S

/-- The bytes of a string that fill no block. -/
def leftover (M : List Byte) : List Byte := M.drop (64 * (M.length / 64))

/-- R219: the message with its padding and its length field. -/
def paddedMessage (M : List Byte) : List Byte :=
  let L := 8 * M.length
  M ++ padBytes (padLength (M.length % 64)) ++ encodeWords [BitVec.ofNat 32 L, BitVec.ofNat 32 (L / 0x100000000)]

/-- R219: MD4 of a message. -/
def md4 (M : List Byte) : List Byte := encodeWords (absorb initialState (paddedMessage M)).toList

/-- R24, R219: the context is the one that being fed the bytes M since the last context reset leaves. -/
def State.Fed (s : State) (M : List Byte) : Prop :=
  s.S = absorb initialState M ∧ s.bitCount = BitVec.ofNat 64 (8 * M.length) ∧
    s.pendingLen.val = M.length % 64 ∧ s.pending = leftover M

/-- R24, R181, R191, R219, R235, R260: which message the context has been fed after the step a state between commands takes,
if it has been fed M before. RST empties it; so do an INIT and a FINALIZE that are not refused; an UPDATE that is neither
refused nor out of bounds appends its window; everything else keeps it. -/
def State.messageAfter (s : State) (M : List Byte) : List Byte :=
  if s.inbox.head? = some .rst then []
  else
    match receive s.rx s.inbox with
    | .command (.update off len) _ => if s.fault || s.outOfBounds off len then M else M ++ s.window off len
    | .command .init _ => if s.fault then M else []
    | .command .finalize _ => if s.fault then M else []
    | .command _ _ => M
    | .illegal _ => M
    | .waiting _ _ => M

/-- R29, R171: SC is 0 between commands, and in a running compression it selects a micro-operation. -/
def State.sequencerOk (s : State) : Prop := if s.compressing then s.sc.toNat ≤ 48 else s.sc = 0#6

/-- R25: pendingLen = count_lo[8:3]. -/
def State.lengthOk (s : State) : Prop := s.pendingLen.val = s.bytePosition

/-- R32, R33: FAULT is set exactly when CAUSE names a fault. -/
def State.faultOk (s : State) : Prop := s.fault = true ↔ s.cause ≠ .none

/-- R50, R9: SRC is in its canonical form, inside SRC_SIZE, which is in its range. -/
def State.sourceOk (s : State) : Prop :=
  s.srcMem.wf = true ∧ s.srcMem.within s.srcSize = true ∧ s.srcSize < 0x100000000

/-- R74, R260: what has been received is the beginning of a command. -/
def State.receptionOk (s : State) : Prop := decodeCommand s.rx = .incomplete

/-- R80: digest bytes in a response are DIGEST[0..15], and come with OK. -/
def State.responseOk (s : State) : Prop :=
  ∀ r, s.rsp = some r → r.digest = none ∨ (r.code = .ok ∧ r.digest = some s.digest)

/-- What every step keeps. -/
structure State.Inv (s : State) : Prop where
  sequencer : s.sequencerOk
  length : s.lengthOk
  fault : s.faultOk
  source : s.sourceOk
  reception : s.receptionOk
  response : s.responseOk

/-- Everything of the state but the three ports (the response, the words being received and the inputs). -/
def State.core (s : State) : State := { s with rsp := none, rx := [], inbox := [] }

/-- Consecutive windows of SRC from an offset fed by successive UPDATEs, one per length (R202). -/
def feedChunks (off : Nat) : List Nat → State → Host.Outcome State Fault Refusal
  | [], s => .next s
  | n :: ns, s =>
    match exec (.update off n) s with
    | .next t => feedChunks (off + n) ns t
    | .fault f => .fault f
    | .refused r => .refused r

/-- A safe state: no fault is latched, so commands have their effect (R235). -/
def State.Safe (s : State) : Prop := s.fault = false

end Sys2Proof.Machine
end

