-- ==== Sys2Proof/Certificates/Slice0/Obligations.lean ====
section
/-! DEFINITION. The statements for the provers. Each docstring says what it states; OBLIGATIONS.json names the rules of
spec/ it formalises. -/

open Sys2Proof Sys2Proof.Machine

/-- Words written out from the spec decode to the instruction they stand for. The header 0x00000001 decodes to INIT, the words 0x00000002 0x00000005 0x00000003 to UPDATE 5, 3, the header 0x00000003 to FINALIZE; the SC values 0, 17, 47 and 48 select STEP_R1_00, STEP_R2_01, STEP_R3_15 and FEEDFORWARD. -/
def Obligations.DecodeReadsTheSpecWords : Prop :=
  decodeCommand [0x00000001#32] = .command .init [] ∧
  decodeCommand [0x00000002#32, 0x00000005#32, 0x00000003#32] = .command (.update 5 3) [] ∧
  decodeCommand [0x00000003#32] = .command .finalize [] ∧
  decodeMicro 0b000000#6 = some .stepR1_00 ∧
  decodeMicro 0b010001#6 = some .stepR2_01 ∧
  decodeMicro 0b101111#6 = some .stepR3_15 ∧
  decodeMicro 0b110000#6 = some .feedforward

/-- Decoding the encoding of any well-formed instruction gives the instruction back. For every well-formed instruction i, with every operand value, decode (encode i) is i; and for a command the decoder reads exactly its words off the front of any longer word list. -/
def Obligations.DecodeInvertsEncode : Prop :=
  ∀ i : Instr, i.wf = true →
    decode (encode i) = .ok i ∧
    ∀ rest, commandWords i ≠ [] → decodeCommand (commandWords i ++ rest) = .command i rest

/-- Whatever decodes to a command is that command's own encoding followed by the rest. If a word list decodes to the command i with the words rest left over, then i is well formed and the list is the encoding of i followed by rest: no bit of the words is ignored. -/
def Obligations.CommandWordsDetermineTheCommand : Prop :=
  ∀ ws i rest, decodeCommand ws = .command i rest → i.wf = true ∧ ws = commandWords i ++ rest

/-- The header alone fixes how many words are consumed. With fewer words than the header says the decoder waits; with enough it consumes exactly that many (3 for UPDATE, 1 for every other header, an illegal one among them), and a header is rejected exactly when RSVD is not 0 or OPC is not 1, 2 or 3. -/
def Obligations.CommandLengthFromHeader : Prop :=
  ∀ (h : Word) (ws : List Word),
    (commandLength h = 3 ↔ h = 0x00000002#32) ∧ (commandLength h = 3 ∨ commandLength h = 1) ∧
    (ws.length + 1 < commandLength h → decodeCommand (h :: ws) = .incomplete) ∧
    (commandLength h ≤ ws.length + 1 →
      (∃ i, decodeCommand (h :: ws) = .command i (ws.drop (commandLength h - 1))) ∨
      (∃ why, decodeCommand (h :: ws) = .illegal why (ws.drop (commandLength h - 1)))) ∧
    ((∃ why rest, decodeCommand (h :: ws) = .illegal why rest) ↔
      256 ≤ h.toNat ∨ (h.toNat % 256 ≠ 1 ∧ h.toNat % 256 ≠ 2 ∧ h.toNat % 256 ≠ 3))

/-- SC selects a micro-operation exactly for the values 0 to 48, a different one for each. decodeMicro gives an instruction exactly when SC is at most 48, two different values never give the same instruction, and a running compression whose SC is above 48 stops with the fault stuckStepCounter. -/
def Obligations.StepCounterSelectsFortyNineOperations : Prop :=
  (∀ sc : BitVec 6, (∃ i, decodeMicro sc = some i) ↔ sc.toNat ≤ 48) ∧
  (∀ (sc sc' : BitVec 6) (i : Instr), decodeMicro sc = some i → decodeMicro sc' = some i → sc = sc') ∧
  (∀ s : State, s.compressing = true → 48 < s.sc.toNat → step s = .fault (.stuckStepCounter s.sc))

/-- A step runs the command whose words are at the front of CMD. Between commands, when the words already received and the words at the front of the inputs together decode to the command i with none left over, step is exec of i on the state with those words consumed, nothing partly received and no response yet. It rests on three entries of the log: RSP holds what the last transition produced (log 6, the model's choice); one step takes all the words up to a whole command (log 7, the model's choice); and an UPDATE whose words arrived in parts reads SRC as it stands when its last word arrives (log 5, DEDUCED, unsafe). -/
def Obligations.StepRunsDecodedCommand : Prop :=
  ∀ (s : State) (i : Instr) (ws : List Word) (evs : List HostEvent),
    s.compressing = false → s.receptionOk → ws ≠ [] → s.inbox = ws.map .word ++ evs →
    decodeCommand (s.rx ++ ws) = .command i [] →
    step s = exec i { s with rsp := none, rx := [], inbox := evs }

/-- A step of a running compression runs the micro-operation SC selects. While a compression runs, step is exec of the instruction SC selects, on the state with no response (the model's choices of log 1 and log 6). -/
def Obligations.StepRunsSelectedMicroOperation : Prop :=
  ∀ (s : State) (i : Instr), s.compressing = true → decodeMicro s.sc = some i →
    step s = exec i { s with rsp := none }

/-- A command whose words have not all arrived is kept and has no effect but on RSP, and an idle machine holds its state but for RSP. Between commands, when the words present do not complete a command and no further word follows them, the step keeps them as received, consumes them from the inputs and changes nothing else but the response, which becomes none; with nothing at the inputs the step changes nothing but the response, which becomes none. How words are received is the model's choice of log 7; that an idle machine takes such a step is log 8 (DEDUCED); that both clear the response is the model's choice of log 6, which is unsafe for a claim that RSP shows nothing afterwards. -/
def Obligations.PartlyReceivedCommandWaits : Prop :=
  (∀ (s : State) (ws : List Word) (evs : List HostEvent),
    s.compressing = false → ws ≠ [] → s.inbox = ws.map .word ++ evs → (∀ w es, evs ≠ .word w :: es) →
    s.receptionOk → decodeCommand (s.rx ++ ws) = .incomplete →
    step s = .next { s with rsp := none, rx := s.rx ++ ws, inbox := evs }) ∧
  (∀ s : State, s.compressing = false → s.inbox = [] → step s = .next { s with rsp := none })

/-- A presented source window is read back byte for byte, and nothing else changes. When the host presents a window of fewer than 2^32 bytes between commands, afterwards SRC_SIZE is its length and SRC[j] its byte j; SRC[j] for j past the window reads 0x00, the cells are in canonical form, the event is consumed, and all other state is as before but the response, which is none. That a window is a host event, its cells and what an address past it reads as are the model's choice of log 4; that the response is cleared is the choice of log 6; that a larger window is refused by name is the choice of log 12. -/
def Obligations.HostPresentsSource : Prop :=
  ∀ (s : State) (bytes : List Byte) (evs : List HostEvent), s.compressing = false → s.inbox = .src bytes :: evs →
    (bytes.length < 0x100000000 → ∃ t, step s = .next t ∧ t.srcSize = bytes.length ∧
      (∀ j, t.srcByte j = bytes.getD j 0x00#8) ∧ t.srcMem.wf = true ∧
      t = { s with rsp := none, inbox := evs, srcSize := t.srcSize, srcMem := t.srcMem }) ∧
    (0x100000000 ≤ bytes.length → step s = .refused .sourceTooLarge)

/-- Between commands, RST performs the hardware reset as one transition, whatever else the state holds. When no compression runs and RST is the oldest input, one step consumes it and leaves the inputs behind it; a partly received command is discarded and no response produced; S, bitCount, BUF, pendingLen, X and SC take their initial values, DIGEST is 16 zero bytes, PHASE, FAULT and CAUSE are 0. That RST is taken in its place among the inputs, and only between compressions, is log 9 (DEDUCED, unsafe); that the inputs behind it stay is log 10 (DEDUCED, unsafe); that no response shows as RSP = none is the model's choice of log 6. -/
def Obligations.HardwareResetLeavesResetValues : Prop :=
  ∀ (s : State) (evs : List HostEvent), s.compressing = false → s.inbox = .rst :: evs →
    ∃ t, step s = .next t ∧ t.inbox = evs ∧ t.rx = [] ∧ t.rsp = none ∧
      t.S = #v[0x67452301#32, 0xefcdab89#32, 0x98badcfe#32, 0x10325476#32] ∧
      t.countLo = 0#32 ∧ t.countHi = 0#32 ∧ (∀ k : Fin 64, t.buf[k] = 0x00#8) ∧ t.pendingLen = 0 ∧
      (∀ k : Fin 16, t.X[k] = 0#32) ∧ t.sc = 0#6 ∧ (∀ k : Fin 16, t.digest[k] = 0x00#8) ∧
      t.phase = .initialized ∧ t.fault = false ∧ t.cause = .none

/-- The state after reset, and after INIT and FINALIZE, has the values of the reset table. State.reset has the hardware-reset column of the table; after INIT and after FINALIZE (from a state with FAULT = 0) the same values hold, but that FINALIZE leaves the digest it produced (the 16 bytes its response carries), and FAULT and CAUSE are unchanged. -/
def Obligations.ResetStateHasTheSpecValues : Prop :=
  let contextInitial (t : State) : Prop :=
    t.S = #v[0x67452301#32, 0xefcdab89#32, 0x98badcfe#32, 0x10325476#32] ∧ t.countLo = 0#32 ∧ t.countHi = 0#32 ∧
    (∀ k : Fin 64, t.buf[k] = 0x00#8) ∧ t.pendingLen = 0 ∧ (∀ k : Fin 16, t.X[k] = 0#32) ∧ t.sc = 0#6 ∧
    t.phase = .initialized
  let zeroDigest (t : State) : Prop := ∀ k : Fin 16, t.digest[k] = 0x00#8
  (contextInitial State.reset ∧ zeroDigest State.reset ∧ State.reset.fault = false ∧ State.reset.cause = .none) ∧
  ∀ s : State, s.fault = false →
    (∃ t, exec .init s = .next t ∧ contextInitial t ∧ zeroDigest t ∧ t.fault = false ∧ t.cause = s.cause) ∧
    (∃ t, exec .finalize s = .next t ∧ contextInitial t ∧ t.rsp = some ⟨.ok, some t.digest⟩ ∧
      t.digest.toList = encodeWords
        (absorb s.S (s.pending ++ padBytes (padLength s.bytePosition) ++ s.lengthField)).toList ∧
      t.fault = false ∧ t.cause = s.cause)

/-- The state after reset meets the invariant. SC is 0 between commands, pendingLen is count_lo[8:3], FAULT agrees with CAUSE, SRC is in canonical form, nothing illegal is partly received, and a digest in a response is DIGEST. -/
def Obligations.ResetMeetsInvariant : Prop :=
  State.reset.Inv

/-- Every step keeps the invariant. From every state that meets it: SC stays 0 between commands and at most 48 in a running compression (so R87's unreachable values stay unreachable), pendingLen stays count_lo[8:3], FAULT stays set exactly when CAUSE names a fault, SRC stays in canonical form inside SRC_SIZE, what is partly received stays the beginning of a command, and digest bytes in a response are DIGEST. -/
def Obligations.StepKeepsInvariant : Prop :=
  ∀ s t : State, s.Inv → step s = .next t → t.Inv

/-- A machine that meets the invariant, and is presented only windows in range, always has a next state. From a state that meets the invariant and whose oldest input is not an over-long source window, step answers a next state: no command and no phase makes it stop. -/
def Obligations.InvariantStatesNeverStick : Prop :=
  ∀ s : State, s.Inv → (∀ e ∈ s.inbox.head?, e.wf = true) → ∃ t, step s = .next t

/-- INIT: the context reset, DIGEST to zero, PHASE to 0, OK; REFUSED while FAULT = 1. With FAULT = 0, INIT completes: S, bitCount, BUF, pendingLen, X and SC are initial, DIGEST is 16 zero bytes, PHASE is 0, the response is OK without data; FAULT, CAUSE, the words received, the inputs and SRC are unchanged. With FAULT = 1 it writes nothing and answers REFUSED. -/
def Obligations.InitResetsTheContext : Prop :=
  ∀ s : State,
    (s.fault = true → exec .init s = .next { s with rsp := some ⟨.refused, none⟩ }) ∧
    (s.fault = false → ∃ t, exec .init s = .next t ∧
      t.S = #v[0x67452301#32, 0xefcdab89#32, 0x98badcfe#32, 0x10325476#32] ∧ t.countLo = 0#32 ∧ t.countHi = 0#32 ∧
      (∀ k : Fin 64, t.buf[k] = 0x00#8) ∧ t.pendingLen = 0 ∧ (∀ k : Fin 16, t.X[k] = 0#32) ∧ t.sc = 0#6 ∧
      (∀ k : Fin 16, t.digest[k] = 0x00#8) ∧ t.phase = .initialized ∧ t.rsp = some ⟨.ok, none⟩ ∧
      t.fault = s.fault ∧ t.cause = s.cause ∧ t.rx = s.rx ∧ t.inbox = s.inbox ∧
      t.srcSize = s.srcSize ∧ (∀ a, t.srcByte a = s.srcByte a))

/-- INIT followed by INIT leaves every piece of state as one INIT leaves it. For every state, the state after a second INIT is the state after the first. -/
def Obligations.InitIsIdempotent : Prop :=
  ∀ s : State, ∃ t, exec .init s = .next t ∧ exec .init t = .next t

/-- An INIT right after a FINALIZE changes only DIGEST and the response. FINALIZE has already reset the context, so INIT after it sets DIGEST to 16 zero bytes, answers OK, and leaves all else. -/
def Obligations.InitAfterFinalizeOnlyClearsDigest : Prop :=
  ∀ s : State, s.fault = false → ∃ t, exec .finalize s = .next t ∧
    exec .init t = .next { t with digest := Vector.replicate 16 0x00#8, rsp := some ⟨.ok, none⟩ }

/-- An illegal header raises IllegalCommand, is one word long, and writes nothing else. Between commands and with FAULT = 0, a header whose OPC is 0x00 or 0x04 to 0xFF, or whose bits 31:8 are not all zero, is consumed alone; FAULT becomes 1, CAUSE 2 (illegal), the response code is 2 (ILLEGAL_COMMAND), and nothing else changes. -/
def Obligations.IllegalHeaderRaisesIllegalCommand : Prop :=
  ∀ (s : State) (h : Word) (evs : List HostEvent),
    s.compressing = false → s.rx = [] → s.fault = false → s.inbox = .word h :: evs →
    (h.toNat % 256 = 0x00 ∨ 0x04 ≤ h.toNat % 256 ∨ h.toNat / 256 ≠ 0) →
    step s = .next { s with inbox := evs, fault := true, cause := .illegal, rsp := some ⟨.illegalCommand, none⟩ } ∧
    Cause.illegal.bits = 2#2 ∧ RspCode.illegalCommand.bits = 2#2

/-- UPDATE raises BoundsFault exactly when OFF + LEN > SRC_SIZE, without wrap. With FAULT = 0: if OFF + LEN exceeds SRC_SIZE, FAULT becomes 1, CAUSE 1, the response code 1 and nothing else changes; otherwise, OFF = SRC_SIZE with LEN = 0 among the cases, it answers OK and FAULT stays 0. FINALIZE never faults. -/
def Obligations.UpdateBoundsFault : Prop :=
  ∀ (s : State) (off len : Nat), s.fault = false →
    (s.srcSize < off + len → exec (.update off len) s =
      .next { s with fault := true, cause := .bounds, rsp := some ⟨.boundsFault, none⟩ }) ∧
    (off + len ≤ s.srcSize → ∃ t, exec (.update off len) s = .next t ∧ t.fault = false ∧ t.rsp = some ⟨.ok, none⟩) ∧
    (∃ t, exec (.update s.srcSize 0) s = .next t ∧ t.fault = false) ∧
    (∃ t, exec .finalize s = .next t ∧ t.fault = false) ∧
    Cause.bounds.bits = 1#2 ∧ RspCode.boundsFault.bits = 1#2

/-- While FAULT = 1 every command is consumed whole, writes nothing and answers REFUSED. For INIT, UPDATE, FINALIZE and an illegal header at the front of the inputs between commands, the step consumes exactly the command's words, answers REFUSED (CODE 3) and changes nothing else: FAULT and CAUSE keep the first fault. -/
def Obligations.FaultedMachineRefusesCommands : Prop :=
  (∀ (s : State) (i : Instr) (evs : List HostEvent), s.compressing = false → s.rx = [] → s.fault = true →
    i.wf = true → commandWords i ≠ [] → s.inbox = (commandWords i).map .word ++ evs →
    step s = .next { s with inbox := evs, rsp := some ⟨.refused, none⟩ }) ∧
  (∀ (s : State) (h : Word) (why : Reject) (evs : List HostEvent), s.compressing = false → s.rx = [] →
    s.fault = true → decodeCommand [h] = .illegal why [] → s.inbox = .word h :: evs →
    step s = .next { s with inbox := evs, rsp := some ⟨.refused, none⟩ }) ∧
  RspCode.refused.bits = 3#2

/-- FAULT, once 1, stays 1 with its first cause until hardware reset. Over every step from a state with FAULT = 1: either the step consumed RST between commands, or FAULT is still 1 and CAUSE is unchanged; INIT does not clear it. -/
def Obligations.OnlyHardwareResetClearsFault : Prop :=
  (∀ s t : State, s.fault = true → step s = .next t →
    (s.compressing = false ∧ s.inbox.head? = some .rst) ∨ (t.fault = true ∧ t.cause = s.cause)) ∧
  (∀ s : State, s.fault = true → ∃ t, exec .init s = .next t ∧ t.fault = true ∧ t.cause = s.cause)

/-- A step that raises a fault changes only FAULT and CAUSE. If FAULT goes from 0 to 1 in a step, the state after it is the state before, plus FAULT and a CAUSE of bounds or illegal; only the response, the words received and the inputs (the consumed command) differ otherwise. -/
def Obligations.FaultsArePrecise : Prop :=
  ∀ s t : State, s.fault = false → step s = .next t → t.fault = true →
    t.core = { s.core with fault := true, cause := t.cause } ∧ (t.cause = .bounds ∨ t.cause = .illegal)

/-- UPDATE compresses every full block of pending bytes and window, and keeps the rest pending. With FAULT = 0 and the window in bounds, UPDATE completes: with M the pending bytes followed by the window, S becomes the compression of every full 64-byte block of M in order (floor(|M|/64) of them), the pending bytes are what is left of M, pendingLen = (pendingLen + LEN) mod 64, bitCount grows by 8·LEN modulo 2^64, PHASE is 1 and the response OK. -/
def Obligations.UpdateAbsorbsTheWindow : Prop :=
  ∀ (s : State) (off len : Nat), s.fault = false → off + len ≤ s.srcSize →
    ∃ t, exec (.update off len) s = .next t ∧
      t.S = absorb s.S (s.pending ++ s.window off len) ∧
      t.pending = leftover (s.pending ++ s.window off len) ∧
      t.pendingLen.val = (s.pendingLen.val + len) % 64 ∧
      t.bitCount = s.bitCount + BitVec.ofNat 64 (8 * len) ∧
      t.phase = .updating ∧ t.rsp = some ⟨.ok, none⟩

/-- UPDATE adds 8·n to the bit count modulo 2^64, carrying between the halves. With FAULT = 0 and the window in bounds, for LEN = n: t = count_lo + (8n mod 2^32), count_lo becomes t mod 2^32, count_hi becomes (count_hi + (n >> 29) + (t >> 32)) mod 2^32, also when no block is compressed; as one 64-bit number the count grows by 8n modulo 2^64, with no fault. -/
def Obligations.UpdateCountsBits : Prop :=
  ∀ (s : State) (off n : Nat), s.fault = false → n < 0x100000000 → off + n ≤ s.srcSize →
    ∃ u, exec (.update off n) s = .next u ∧ u.fault = false ∧
      (let t := s.countLo.toNat + (8 * n) % 2 ^ 32
       u.countLo.toNat = t % 2 ^ 32 ∧ u.countHi.toNat = (s.countHi.toNat + (n >>> 29) + (t >>> 32)) % 2 ^ 32) ∧
      u.bitCount.toNat = (s.bitCount.toNat + 8 * n) % 2 ^ 64

/-- Where UPDATE leaves each byte of BUF. Append path (pendingLen + LEN < 64): the window goes to BUF[pendingLen ..] and no other byte changes. Block path: BUF[k] for k below the new pendingLen is the tail of the window, and above it the byte the first block put there (the old byte below the old pendingLen, the head of the window above). The bytes at and above the new pendingLen follow R201 and are log 21 (DEDUCED, unsafe for this statement): 93_implementation_defined.md U2 and 91_not_in_source.md N6 let an implementation hold any value there, and no rule reads them. The bytes below the new pendingLen rest on no log entry. -/
def Obligations.UpdateWritesTheBuffer : Prop :=
  ∀ (s t : State) (off len : Nat), s.fault = false → off + len ≤ s.srcSize → exec (.update off len) s = .next t →
    (s.pendingLen.val + len < 64 → ∀ k : Fin 64, t.buf[k] =
      if s.pendingLen.val ≤ k.val ∧ k.val < s.pendingLen.val + len then s.srcByte (off + (k.val - s.pendingLen.val))
      else s.buf[k]) ∧
    (64 ≤ s.pendingLen.val + len → ∀ k : Fin 64, t.buf[k] =
      if k.val < (s.pendingLen.val + len) % 64 then s.srcByte (off + (len - (s.pendingLen.val + len) % 64) + k.val)
      else if k.val < s.pendingLen.val then s.buf[k]
      else s.srcByte (off + (k.val - s.pendingLen.val)))

/-- X after UPDATE holds the words of the last block compressed, or is unchanged. If UPDATE compresses no block, X and SC are unchanged; otherwise X holds the sixteen little-endian words of the last full block of the pending bytes and the window, and SC is 0. -/
def Obligations.UpdateLeavesTheLastBlockInX : Prop :=
  ∀ (s t : State) (off len : Nat), s.fault = false → off + len ≤ s.srcSize → exec (.update off len) s = .next t →
    (s.pendingLen.val + len < 64 → t.X = s.X ∧ t.sc = s.sc) ∧
    (64 ≤ s.pendingLen.val + len → t.sc = 0#6 ∧
      t.X = decodeWords (listByte (s.pending ++ s.window off len)) (64 * ((s.pendingLen.val + len) / 64 - 1)) 16)

/-- What UPDATE leaves unchanged, whatever it answers. UPDATE always completes with a next state in which DIGEST, the words received, the inputs, SRC_SIZE and every byte of SRC are as before; FAULT and CAUSE are as before unless it raised BoundsFault, and PHASE is as before unless it answered OK. -/
def Obligations.UpdateFrame : Prop :=
  ∀ (s : State) (off len : Nat), ∃ t, exec (.update off len) s = .next t ∧
    t.digest = s.digest ∧ t.rx = s.rx ∧ t.inbox = s.inbox ∧ t.srcSize = s.srcSize ∧
    (∀ a, t.srcByte a = s.srcByte a) ∧
    (t.rsp ≠ some ⟨.boundsFault, none⟩ → t.fault = s.fault ∧ t.cause = s.cause) ∧
    (t.rsp ≠ some ⟨.ok, none⟩ → t.phase = s.phase ∧ t.S = s.S ∧ t.countLo = s.countLo ∧ t.countHi = s.countHi ∧
      t.buf = s.buf ∧ t.pendingLen = s.pendingLen ∧ t.X = s.X ∧ t.sc = s.sc)

/-- An UPDATE of no bytes only sets PHASE and answers OK. With FAULT = 0 and OFF at most SRC_SIZE (OFF = SRC_SIZE among the cases), UPDATE with LEN = 0 leaves every piece of state as it is, but PHASE = 1 and the response OK. -/
def Obligations.ZeroLengthUpdate : Prop :=
  ∀ (s : State) (off : Nat), s.fault = false → off ≤ s.srcSize →
    exec (.update off 0) s = .next { s with phase := .updating, rsp := some ⟨.ok, none⟩ }

/-- UPDATE depends on no byte of SRC outside its window. Two states that differ only in the bytes of SRC outside SRC[OFF .. OFF+LEN-1] have the same outcome, with the same SRC difference kept. That they agree in the working registers too, which U8 lets each hold any value of after a compression, is the model's choice of log 24 (unsafe for just that). -/
def Obligations.UpdateReadsOnlyItsWindow : Prop :=
  ∀ (s : State) (m : Memory) (off len : Nat),
    (∀ j, off ≤ j → j < off + len → s.srcMem.read j = m.read j) →
    ∃ t, exec (.update off len) s = .next t ∧
      exec (.update off len) { s with srcMem := m } = .next { t with srcMem := m }

/-- Any split of a window into successive UPDATEs leaves the same context as one UPDATE. For every list of lengths, feeding the consecutive windows by successive UPDATEs completes, and ends with the same S, bitCount, pendingLen and meaningful bytes of BUF as one UPDATE of the whole window from the same state; so a FINALIZE after either gives the same digest. -/
def Obligations.ChunkingInvariance : Prop :=
  ∀ (lens : List Nat) (s : State) (off : Nat), s.fault = false → off + lens.sum ≤ s.srcSize →
    ∃ t u, feedChunks off lens s = .next t ∧ exec (.update off lens.sum) s = .next u ∧
      t.S = u.S ∧ t.bitCount = u.bitCount ∧ t.pendingLen = u.pendingLen ∧ t.pending = u.pending ∧
      ∃ v w, exec .finalize t = .next v ∧ exec .finalize u = .next w ∧ v.digest = w.digest

/-- FINALIZE: padding, length field, digest, context reset, OK with the digest; REFUSED while FAULT = 1. With FAULT = 0, FINALIZE completes: DIGEST is the little-endian encoding of S after compressing the pending bytes, the padding for r = count_lo[8:3] and the pre-padding bit count; the response is OK with those bytes; S, bitCount, BUF, pendingLen, X, SC and PHASE are initial; FAULT, CAUSE, the words received, the inputs and SRC are unchanged. With FAULT = 1 it writes nothing and answers REFUSED. -/
def Obligations.FinalizeDeliversTheDigest : Prop :=
  ∀ s : State,
    (s.fault = true → exec .finalize s = .next { s with rsp := some ⟨.refused, none⟩ }) ∧
    (s.fault = false → ∃ t, exec .finalize s = .next t ∧
      (let r := s.countLo.toNat % 512 / 8
       let padLen := if r < 56 then 56 - r else 120 - r
       let final := absorb s.S
         (s.pending ++ (0x80#8 :: List.replicate (padLen - 1) 0x00#8) ++ encodeWords [s.countLo, s.countHi])
       ∀ (i : Fin 4) (j : Fin 4), t.digest.toList[4 * i.val + j.val]? = some (final[i].extractLsb' (8 * j.val) 8)) ∧
      t.rsp = some ⟨.ok, some t.digest⟩ ∧
      t.S = #v[0x67452301#32, 0xefcdab89#32, 0x98badcfe#32, 0x10325476#32] ∧ t.countLo = 0#32 ∧ t.countHi = 0#32 ∧
      (∀ k : Fin 64, t.buf[k] = 0x00#8) ∧ t.pendingLen = 0 ∧ (∀ k : Fin 16, t.X[k] = 0#32) ∧ t.sc = 0#6 ∧
      t.phase = .initialized ∧ t.fault = s.fault ∧ t.cause = s.cause ∧ t.rx = s.rx ∧ t.inbox = s.inbox ∧
      t.srcSize = s.srcSize ∧ (∀ a, t.srcByte a = s.srcByte a))

/-- After the padding 56 bytes are pending, and the length field completes exactly one block. From a state with pendingLen = count_lo[8:3] = r: after the padding feed pendingLen is 56, and the padding compressed one block when r >= 56 and none otherwise; for any 8-byte length field, its feed then compresses exactly one block, the 56 pending bytes followed by the field, and leaves nothing pending. -/
def Obligations.PaddingLeavesFiftySixPending : Prop :=
  ∀ (s : State) (lenf : List Byte), s.lengthOk → lenf.length = 8 →
    (feedPadding s).pendingLen.val = 56 ∧
    (s.bytePosition < 56 → (feedPadding s).S = s.S) ∧
    (56 ≤ s.bytePosition → (feedPadding s).S =
      compressWords s.S (listByte (s.pending ++ padBytes (padLength s.bytePosition))) 0) ∧
    (feedLengthField lenf (feedPadding s)).S =
      compressWords (feedPadding s).S (listByte ((feedPadding s).pending ++ lenf)) 0 ∧
    (feedLengthField lenf (feedPadding s)).pendingLen.val = 0

/-- After reset, and after INIT, the context has been fed the empty message. State.reset.Fed [] holds, and INIT from any state with FAULT = 0 completes in a state that has been fed nothing. -/
def Obligations.FreshContextIsFedNothing : Prop :=
  State.reset.Fed [] ∧ ∀ s : State, s.fault = false → ∃ t, exec .init s = .next t ∧ t.Fed []

/-- Between commands every step keeps track of the message fed: UPDATE appends to it, INIT, FINALIZE and RST empty it, all else keeps it. For every state s between commands whose context has been fed M, every step that answers t gives a state between commands that has been fed M', where M' is empty after RST and after an INIT or a FINALIZE executed with FAULT = 0, M followed by SRC[OFF .. OFF+LEN-1] in order after an UPDATE executed with FAULT = 0 and its window in bounds, and M otherwise (a refused or faulting command, an illegal header, a partly received command, a new source window, an idle step). Fed M says that S is the initial state after the full blocks of M, bitCount is 8 times its length modulo 2^64 and the rest of M is pending. A FINALIZE executed with FAULT = 0 leaves MD4 of M in DIGEST. And UPDATE itself, from any state that has been fed M, with FAULT = 0 and in bounds, completes and has then been fed M followed by its window. Which bytes an UPDATE appends when its words arrive in parts is log 5 (DEDUCED); that one step takes all the words present is the choice of log 7; that RST is taken in its place among the inputs is log 9 (DEDUCED); that a state between commands is one with the model's own field compressing = false is the choice of log 1. -/
def Obligations.EveryStepTracksTheMessage : Prop :=
  (∀ (s t : State) (M : List Byte), s.Fed M → s.compressing = false → step s = .next t →
    t.Fed (s.messageAfter M) ∧ t.compressing = false ∧
    ∀ evs, receive s.rx s.inbox = .command .finalize evs → s.fault = false → t.digest.toList = md4 M) ∧
  (∀ (s : State) (M : List Byte) (off len : Nat), s.Fed M → s.fault = false → off + len ≤ s.srcSize →
    ∃ t, exec (.update off len) s = .next t ∧ t.Fed (M ++ s.window off len))

/-- FINALIZE returns MD4 of the message fed since the last context reset, and the context is then fresh. If the context has been fed M and FAULT = 0, FINALIZE completes; DIGEST and the response are the encoding of the state reached by COMPRESS over the 64-byte blocks of M padded with 0x80, zeros and the 64-bit length, in order, from the initial state; the padded length is a multiple of 64; the context is then as fresh. -/
def Obligations.FinalizeComputesMd4 : Prop :=
  ∀ (s : State) (M : List Byte), s.Fed M → s.fault = false →
    ∃ t, exec .finalize s = .next t ∧ t.digest.toList = md4 M ∧ t.rsp = some ⟨.ok, some t.digest⟩ ∧ t.Fed [] ∧
      (paddedMessage M).length % 64 = 0

/-- FINALIZE of an empty context yields the digest of the empty message, so a second FINALIZE in a row does. If the context has been fed nothing and FAULT = 0, FINALIZE returns 31d6cfe0d16ae931b73c59d7e0c089c0; and from any state with FAULT = 0 the second of two FINALIZEs returns it. -/
def Obligations.EmptyMessageDigest : Prop :=
  let empty : List Byte := [0x31#8, 0xd6#8, 0xcf#8, 0xe0#8, 0xd1#8, 0x6a#8, 0xe9#8, 0x31#8,
    0xb7#8, 0x3c#8, 0x59#8, 0xd7#8, 0xe0#8, 0xc0#8, 0x89#8, 0xc0#8]
  (∀ s : State, s.Fed [] → s.fault = false → ∃ t, exec .finalize s = .next t ∧ t.digest.toList = empty) ∧
  (∀ s : State, s.fault = false → ∃ t u, exec .finalize s = .next t ∧ exec .finalize t = .next u ∧
    u.digest.toList = empty)

/-- The four digests the source states. One UPDATE of the ASCII strings "", "a", "abc" and "message digest" from a fresh context, then FINALIZE, gives the digests the source lists. -/
def Obligations.SourceDigests : Prop :=
  let hashes (M D : List Byte) : Prop :=
    ∃ t u, exec (.update 0 M.length) (presentSource M State.reset) = .next t ∧ exec .finalize t = .next u ∧
      u.digest.toList = D
  hashes []
    [0x31#8, 0xd6#8, 0xcf#8, 0xe0#8, 0xd1#8, 0x6a#8, 0xe9#8, 0x31#8, 0xb7#8, 0x3c#8, 0x59#8, 0xd7#8, 0xe0#8, 0xc0#8, 0x89#8, 0xc0#8] ∧
  hashes [0x61#8]
    [0xbd#8, 0xe5#8, 0x2c#8, 0xb3#8, 0x1d#8, 0xe3#8, 0x3e#8, 0x46#8, 0x24#8, 0x5e#8, 0x05#8, 0xfb#8, 0xdb#8, 0xd6#8, 0xfb#8, 0x24#8] ∧
  hashes [0x61#8, 0x62#8, 0x63#8]
    [0xa4#8, 0x48#8, 0x01#8, 0x7a#8, 0xaf#8, 0x21#8, 0xd8#8, 0x52#8, 0x5f#8, 0xc1#8, 0x0a#8, 0xe8#8, 0x7a#8, 0xa6#8, 0x72#8, 0x9d#8] ∧
  hashes [0x6d#8, 0x65#8, 0x73#8, 0x73#8, 0x61#8, 0x67#8, 0x65#8, 0x20#8, 0x64#8, 0x69#8, 0x67#8, 0x65#8, 0x73#8, 0x74#8]
    [0xd9#8, 0x13#8, 0x0a#8, 0x81#8, 0x64#8, 0x54#8, 0x9f#8, 0xe8#8, 0x18#8, 0x87#8, 0x48#8, 0x06#8, 0xe1#8, 0xc7#8, 0x01#8, 0x4b#8]

/-- Steps 0 to 7: each writes its target register from function F, and nothing else but SC. For every state, each of the micro-operations STEP_R1_00 to STEP_R1_07 completes: its target register becomes the rotated sum the rule gives, from the values before the step, SC becomes the next value, and every other piece of state keeps its value. That SC becomes its own number plus one is R171 where SC holds the micro-operation's own number, the only states in which a step selects it; that its meaning does so whatever SC held is log 14 (DEDUCED). Round 1 has no constant. -/
def Obligations.RoundOneStepsFirstHalf : Prop :=
  ∀ s : State,
    exec .stepR1_00 s = .next { s with sc := 1#6, work := { s.work with a := rotl32 (s.work.a + roundF s.work.b s.work.c s.work.d + s.X[0]) 3 } } ∧
    exec .stepR1_01 s = .next { s with sc := 2#6, work := { s.work with d := rotl32 (s.work.d + roundF s.work.a s.work.b s.work.c + s.X[1]) 7 } } ∧
    exec .stepR1_02 s = .next { s with sc := 3#6, work := { s.work with c := rotl32 (s.work.c + roundF s.work.d s.work.a s.work.b + s.X[2]) 11 } } ∧
    exec .stepR1_03 s = .next { s with sc := 4#6, work := { s.work with b := rotl32 (s.work.b + roundF s.work.c s.work.d s.work.a + s.X[3]) 19 } } ∧
    exec .stepR1_04 s = .next { s with sc := 5#6, work := { s.work with a := rotl32 (s.work.a + roundF s.work.b s.work.c s.work.d + s.X[4]) 3 } } ∧
    exec .stepR1_05 s = .next { s with sc := 6#6, work := { s.work with d := rotl32 (s.work.d + roundF s.work.a s.work.b s.work.c + s.X[5]) 7 } } ∧
    exec .stepR1_06 s = .next { s with sc := 7#6, work := { s.work with c := rotl32 (s.work.c + roundF s.work.d s.work.a s.work.b + s.X[6]) 11 } } ∧
    exec .stepR1_07 s = .next { s with sc := 8#6, work := { s.work with b := rotl32 (s.work.b + roundF s.work.c s.work.d s.work.a + s.X[7]) 19 } }

/-- Steps 8 to 15: each writes its target register from function F, and nothing else but SC. For every state, each of the micro-operations STEP_R1_08 to STEP_R1_15 completes: its target register becomes the rotated sum the rule gives, from the values before the step, SC becomes the next value, and every other piece of state keeps its value. That SC becomes its own number plus one is R171 where SC holds the micro-operation's own number, the only states in which a step selects it; that its meaning does so whatever SC held is log 14 (DEDUCED). Round 1 has no constant. -/
def Obligations.RoundOneStepsLastHalf : Prop :=
  ∀ s : State,
    exec .stepR1_08 s = .next { s with sc := 9#6, work := { s.work with a := rotl32 (s.work.a + roundF s.work.b s.work.c s.work.d + s.X[8]) 3 } } ∧
    exec .stepR1_09 s = .next { s with sc := 10#6, work := { s.work with d := rotl32 (s.work.d + roundF s.work.a s.work.b s.work.c + s.X[9]) 7 } } ∧
    exec .stepR1_10 s = .next { s with sc := 11#6, work := { s.work with c := rotl32 (s.work.c + roundF s.work.d s.work.a s.work.b + s.X[10]) 11 } } ∧
    exec .stepR1_11 s = .next { s with sc := 12#6, work := { s.work with b := rotl32 (s.work.b + roundF s.work.c s.work.d s.work.a + s.X[11]) 19 } } ∧
    exec .stepR1_12 s = .next { s with sc := 13#6, work := { s.work with a := rotl32 (s.work.a + roundF s.work.b s.work.c s.work.d + s.X[12]) 3 } } ∧
    exec .stepR1_13 s = .next { s with sc := 14#6, work := { s.work with d := rotl32 (s.work.d + roundF s.work.a s.work.b s.work.c + s.X[13]) 7 } } ∧
    exec .stepR1_14 s = .next { s with sc := 15#6, work := { s.work with c := rotl32 (s.work.c + roundF s.work.d s.work.a s.work.b + s.X[14]) 11 } } ∧
    exec .stepR1_15 s = .next { s with sc := 16#6, work := { s.work with b := rotl32 (s.work.b + roundF s.work.c s.work.d s.work.a + s.X[15]) 19 } }

/-- Steps 16 to 23: each writes its target register from function G, and nothing else but SC. For every state, each of the micro-operations STEP_R2_00 to STEP_R2_07 completes: its target register becomes the rotated sum the rule gives, from the values before the step, SC becomes the next value, and every other piece of state keeps its value. That SC becomes its own number plus one is R171 where SC holds the micro-operation's own number, the only states in which a step selects it; that its meaning does so whatever SC held is log 14 (DEDUCED). -/
def Obligations.RoundTwoStepsFirstHalf : Prop :=
  ∀ s : State,
    exec .stepR2_00 s = .next { s with sc := 17#6, work := { s.work with a := rotl32 (s.work.a + roundG s.work.b s.work.c s.work.d + s.X[0] + 0x5a827999#32) 3 } } ∧
    exec .stepR2_01 s = .next { s with sc := 18#6, work := { s.work with d := rotl32 (s.work.d + roundG s.work.a s.work.b s.work.c + s.X[4] + 0x5a827999#32) 5 } } ∧
    exec .stepR2_02 s = .next { s with sc := 19#6, work := { s.work with c := rotl32 (s.work.c + roundG s.work.d s.work.a s.work.b + s.X[8] + 0x5a827999#32) 9 } } ∧
    exec .stepR2_03 s = .next { s with sc := 20#6, work := { s.work with b := rotl32 (s.work.b + roundG s.work.c s.work.d s.work.a + s.X[12] + 0x5a827999#32) 13 } } ∧
    exec .stepR2_04 s = .next { s with sc := 21#6, work := { s.work with a := rotl32 (s.work.a + roundG s.work.b s.work.c s.work.d + s.X[1] + 0x5a827999#32) 3 } } ∧
    exec .stepR2_05 s = .next { s with sc := 22#6, work := { s.work with d := rotl32 (s.work.d + roundG s.work.a s.work.b s.work.c + s.X[5] + 0x5a827999#32) 5 } } ∧
    exec .stepR2_06 s = .next { s with sc := 23#6, work := { s.work with c := rotl32 (s.work.c + roundG s.work.d s.work.a s.work.b + s.X[9] + 0x5a827999#32) 9 } } ∧
    exec .stepR2_07 s = .next { s with sc := 24#6, work := { s.work with b := rotl32 (s.work.b + roundG s.work.c s.work.d s.work.a + s.X[13] + 0x5a827999#32) 13 } }

/-- Steps 24 to 31: each writes its target register from function G, and nothing else but SC. For every state, each of the micro-operations STEP_R2_08 to STEP_R2_15 completes: its target register becomes the rotated sum the rule gives, from the values before the step, SC becomes the next value, and every other piece of state keeps its value. That SC becomes its own number plus one is R171 where SC holds the micro-operation's own number, the only states in which a step selects it; that its meaning does so whatever SC held is log 14 (DEDUCED). -/
def Obligations.RoundTwoStepsLastHalf : Prop :=
  ∀ s : State,
    exec .stepR2_08 s = .next { s with sc := 25#6, work := { s.work with a := rotl32 (s.work.a + roundG s.work.b s.work.c s.work.d + s.X[2] + 0x5a827999#32) 3 } } ∧
    exec .stepR2_09 s = .next { s with sc := 26#6, work := { s.work with d := rotl32 (s.work.d + roundG s.work.a s.work.b s.work.c + s.X[6] + 0x5a827999#32) 5 } } ∧
    exec .stepR2_10 s = .next { s with sc := 27#6, work := { s.work with c := rotl32 (s.work.c + roundG s.work.d s.work.a s.work.b + s.X[10] + 0x5a827999#32) 9 } } ∧
    exec .stepR2_11 s = .next { s with sc := 28#6, work := { s.work with b := rotl32 (s.work.b + roundG s.work.c s.work.d s.work.a + s.X[14] + 0x5a827999#32) 13 } } ∧
    exec .stepR2_12 s = .next { s with sc := 29#6, work := { s.work with a := rotl32 (s.work.a + roundG s.work.b s.work.c s.work.d + s.X[3] + 0x5a827999#32) 3 } } ∧
    exec .stepR2_13 s = .next { s with sc := 30#6, work := { s.work with d := rotl32 (s.work.d + roundG s.work.a s.work.b s.work.c + s.X[7] + 0x5a827999#32) 5 } } ∧
    exec .stepR2_14 s = .next { s with sc := 31#6, work := { s.work with c := rotl32 (s.work.c + roundG s.work.d s.work.a s.work.b + s.X[11] + 0x5a827999#32) 9 } } ∧
    exec .stepR2_15 s = .next { s with sc := 32#6, work := { s.work with b := rotl32 (s.work.b + roundG s.work.c s.work.d s.work.a + s.X[15] + 0x5a827999#32) 13 } }

/-- Steps 32 to 39: each writes its target register from function H, and nothing else but SC. For every state, each of the micro-operations STEP_R3_00 to STEP_R3_07 completes: its target register becomes the rotated sum the rule gives, from the values before the step, SC becomes the next value, and every other piece of state keeps its value. That SC becomes its own number plus one is R171 where SC holds the micro-operation's own number, the only states in which a step selects it; that its meaning does so whatever SC held is log 14 (DEDUCED). -/
def Obligations.RoundThreeStepsFirstHalf : Prop :=
  ∀ s : State,
    exec .stepR3_00 s = .next { s with sc := 33#6, work := { s.work with a := rotl32 (s.work.a + roundH s.work.b s.work.c s.work.d + s.X[0] + 0x6ed9eba1#32) 3 } } ∧
    exec .stepR3_01 s = .next { s with sc := 34#6, work := { s.work with d := rotl32 (s.work.d + roundH s.work.a s.work.b s.work.c + s.X[8] + 0x6ed9eba1#32) 9 } } ∧
    exec .stepR3_02 s = .next { s with sc := 35#6, work := { s.work with c := rotl32 (s.work.c + roundH s.work.d s.work.a s.work.b + s.X[4] + 0x6ed9eba1#32) 11 } } ∧
    exec .stepR3_03 s = .next { s with sc := 36#6, work := { s.work with b := rotl32 (s.work.b + roundH s.work.c s.work.d s.work.a + s.X[12] + 0x6ed9eba1#32) 15 } } ∧
    exec .stepR3_04 s = .next { s with sc := 37#6, work := { s.work with a := rotl32 (s.work.a + roundH s.work.b s.work.c s.work.d + s.X[2] + 0x6ed9eba1#32) 3 } } ∧
    exec .stepR3_05 s = .next { s with sc := 38#6, work := { s.work with d := rotl32 (s.work.d + roundH s.work.a s.work.b s.work.c + s.X[10] + 0x6ed9eba1#32) 9 } } ∧
    exec .stepR3_06 s = .next { s with sc := 39#6, work := { s.work with c := rotl32 (s.work.c + roundH s.work.d s.work.a s.work.b + s.X[6] + 0x6ed9eba1#32) 11 } } ∧
    exec .stepR3_07 s = .next { s with sc := 40#6, work := { s.work with b := rotl32 (s.work.b + roundH s.work.c s.work.d s.work.a + s.X[14] + 0x6ed9eba1#32) 15 } }

/-- Steps 40 to 47: each writes its target register from function H, and nothing else but SC. For every state, each of the micro-operations STEP_R3_08 to STEP_R3_15 completes: its target register becomes the rotated sum the rule gives, from the values before the step, SC becomes the next value, and every other piece of state keeps its value. That SC becomes its own number plus one is R171 where SC holds the micro-operation's own number, the only states in which a step selects it; that its meaning does so whatever SC held is log 14 (DEDUCED). -/
def Obligations.RoundThreeStepsLastHalf : Prop :=
  ∀ s : State,
    exec .stepR3_08 s = .next { s with sc := 41#6, work := { s.work with a := rotl32 (s.work.a + roundH s.work.b s.work.c s.work.d + s.X[1] + 0x6ed9eba1#32) 3 } } ∧
    exec .stepR3_09 s = .next { s with sc := 42#6, work := { s.work with d := rotl32 (s.work.d + roundH s.work.a s.work.b s.work.c + s.X[9] + 0x6ed9eba1#32) 9 } } ∧
    exec .stepR3_10 s = .next { s with sc := 43#6, work := { s.work with c := rotl32 (s.work.c + roundH s.work.d s.work.a s.work.b + s.X[5] + 0x6ed9eba1#32) 11 } } ∧
    exec .stepR3_11 s = .next { s with sc := 44#6, work := { s.work with b := rotl32 (s.work.b + roundH s.work.c s.work.d s.work.a + s.X[13] + 0x6ed9eba1#32) 15 } } ∧
    exec .stepR3_12 s = .next { s with sc := 45#6, work := { s.work with a := rotl32 (s.work.a + roundH s.work.b s.work.c s.work.d + s.X[3] + 0x6ed9eba1#32) 3 } } ∧
    exec .stepR3_13 s = .next { s with sc := 46#6, work := { s.work with d := rotl32 (s.work.d + roundH s.work.a s.work.b s.work.c + s.X[11] + 0x6ed9eba1#32) 9 } } ∧
    exec .stepR3_14 s = .next { s with sc := 47#6, work := { s.work with c := rotl32 (s.work.c + roundH s.work.d s.work.a s.work.b + s.X[7] + 0x6ed9eba1#32) 11 } } ∧
    exec .stepR3_15 s = .next { s with sc := 48#6, work := { s.work with b := rotl32 (s.work.b + roundH s.work.c s.work.d s.work.a + s.X[15] + 0x6ed9eba1#32) 15 } }

/-- FEEDFORWARD adds the working registers into S and changes nothing else that is state. For every state FEEDFORWARD completes: S[0..3] grow by a, b, c, d modulo 2^32, SC returns to 0; bitCount, BUF, pendingLen, DIGEST, X, PHASE, FAULT, CAUSE, the response, the words received, the inputs and SRC keep their values. Of a, b, c, d nothing is said: they are not state any more (R28). That SC returns to 0 is R171 where SC is 48, the only states in which a step selects FEEDFORWARD; that its meaning does so whatever SC held is log 14 (DEDUCED). -/
def Obligations.FeedForwardAddsIntoState : Prop :=
  ∀ s : State, ∃ t, exec .feedforward s = .next t ∧
    t.S = #v[s.S[0] + s.work.a, s.S[1] + s.work.b, s.S[2] + s.work.c, s.S[3] + s.work.d] ∧ t.sc = 0#6 ∧
    t.countLo = s.countLo ∧ t.countHi = s.countHi ∧ t.buf = s.buf ∧ t.pendingLen = s.pendingLen ∧
    t.digest = s.digest ∧ t.X = s.X ∧ t.phase = s.phase ∧ t.fault = s.fault ∧ t.cause = s.cause ∧ t.rsp = s.rsp ∧
    t.rx = s.rx ∧ t.inbox = s.inbox ∧ t.srcSize = s.srcSize ∧ (∀ a, t.srcByte a = s.srcByte a)

/-- The micro-operation of every SC in 0 .. 47 is the step the schedule formulas give. For every n below 48, SC = n selects an instruction whose effect is step n of COMPRESS as R86 computes it (round n div 16, position n mod 4, ORDER, SHIFT, K), with SC becoming n + 1 and nothing else changed: a function of SC alone. That SC becomes n + 1 is R171 where SC is n; that the meaning does so whatever SC held is log 14 (DEDUCED). -/
def Obligations.StepTableFollowsTheSchedule : Prop :=
  ∀ n : Nat, n < 48 → ∃ i, decodeMicro (BitVec.ofNat 6 n) = some i ∧
    ∀ s : State, exec i s = .next { s with work := loopStep s.X s.work n, sc := BitVec.ofNat 6 (n + 1) }

/-- Running the 49 micro-operations step by step is the compression a command performs in one transition. From any state, the start of a compression over any 64 bytes followed by 49 steps of the machine ends in exactly the state COMPRESS gives (with no response), and its S is the composition of R116, R120 to R167 and R170 over those bytes; no step stops. That a compression can be run one micro-operation a step beside the atomic command is the model's choice of log 1; that each of those steps leaves no response is the model's choice of log 6; that both ways leave the same free values in a, b, c, d is the choice of log 24. -/
def Obligations.FortyNineMicroStepsAreCompress : Prop :=
  ∀ (s : State) (B : Nat → Byte) (p : Nat),
    core.run 49 (startCompression B p s) = .next { compress B p s with rsp := none } ∧
    (compress B p s).S = addWorking s.S ((List.range 48).foldl (loopStep (decodeWords B p 16)) (loadWorking s.S))

/-- SC advances by one each step and returns to 0 after the feed-forward, which ends the compression. A compression starts with SC = 0; while it runs, a step from SC = s below 48 leads to SC = s + 1 with the compression still running, and from SC = 48 to SC = 0 with it ended (that it is running is the model's own field, log 1). -/
def Obligations.StepCounterRunsInOrder : Prop :=
  (∀ (s : State) (B : Nat → Byte) (p : Nat),
    (startCompression B p s).sc = 0#6 ∧ (startCompression B p s).compressing = true) ∧
  (∀ s : State, s.compressing = true → s.sc.toNat < 48 →
    ∃ t, step s = .next t ∧ t.sc.toNat = s.sc.toNat + 1 ∧ t.compressing = true) ∧
  (∀ s : State, s.compressing = true → s.sc = 48#6 → ∃ t, step s = .next t ∧ t.sc = 0#6 ∧ t.compressing = false)

/-- A compression starts by decoding its block into X and loading S into a, b, c, d. X[k] is the little-endian word of the block bytes 4k to 4k+3 (byte j of the word is its bits 8j+7:8j), a, b, c, d are S[0..3], SC is 0, and nothing else of the context changes. -/
def Obligations.CompressionStartLoadsWords : Prop :=
  ∀ (s : State) (B : Nat → Byte) (p : Nat), let t := startCompression B p s
    (∀ k : Fin 16, t.X[k] = le32 (B (p + 4 * k.val)) (B (p + 4 * k.val + 1)) (B (p + 4 * k.val + 2)) (B (p + 4 * k.val + 3)) ∧
      ∀ j : Fin 4, t.X[k].extractLsb' (8 * j.val) 8 = B (p + 4 * k.val + j.val)) ∧
    t.work = ⟨s.S[0], s.S[1], s.S[2], s.S[3]⟩ ∧ t.sc = 0#6 ∧
    t.S = s.S ∧ t.countLo = s.countLo ∧ t.countHi = s.countHi ∧ t.buf = s.buf ∧ t.pendingLen = s.pendingLen ∧
    t.digest = s.digest

/-- F selects, G is the majority, H is the parity, rotl32 moves each bit, in every bit position. For every bit i: bit i of F is y's where x's is 1 and z's where it is 0; bit i of G is 1 where at least two of the three are 1; bit i of H is the exclusive or; and for 0 < s < 32 bit i of v is bit (i + s) mod 32 of rotl32(v, s). -/
def Obligations.RoundFunctionsBitByBit : Prop :=
  ∀ (x y z : Word) (i : Nat), i < 32 →
    (roundF x y z).getLsbD i = (if x.getLsbD i then y.getLsbD i else z.getLsbD i) ∧
    (roundG x y z).getLsbD i = decide (2 ≤ (x.getLsbD i).toNat + (y.getLsbD i).toNat + (z.getLsbD i).toNat) ∧
    (roundH x y z).getLsbD i = decide (((x.getLsbD i).toNat + (y.getLsbD i).toNat + (z.getLsbD i).toNat) % 2 = 1) ∧
    ∀ s, 0 < s → s < 32 → (rotl32 x s).getLsbD ((i + s) % 32) = x.getLsbD i

/-- COMPRESS depends on the 64 bytes and S alone, wherever the block comes from. Two byte sources that agree on their 64-byte windows give the same new S from the same S, as a function and on the state. -/
def Obligations.CompressDependsOnItsBytesAlone : Prop :=
  ∀ (B B' : Nat → Byte) (p p' : Nat), (∀ j, j < 64 → B (p + j) = B' (p' + j)) →
    (∀ S, compressWords S B p = compressWords S B' p') ∧
    (∀ s s' : State, s.S = s'.S → (compress B p s).S = (compress B' p' s').S)

/-- The compression of the single block of the empty message. COMPRESS of the initial state over 0x80 and 63 zero bytes gives (0xe0cfd631, 0x31e96ad1, 0xd7593cb7, 0xc089c0e0). -/
def Obligations.EmptyMessageBlock : Prop :=
  compressWords #v[0x67452301#32, 0xefcdab89#32, 0x98badcfe#32, 0x10325476#32]
    (listByte (0x80#8 :: List.replicate 63 0x00#8)) 0 =
    #v[0xe0cfd631#32, 0x31e96ad1#32, 0xd7593cb7#32, 0xc089c0e0#32]

/-- DECODE and ENCODE are inverse in both directions. Decoding the encoding of n words gives the words; encoding n words decoded from any offset gives the 4n bytes they were decoded from. -/
def Obligations.CodecDecodeInvertsEncode : Prop :=
  (∀ (n : Nat) (W : Vector Word n), decodeWords (listByte (encodeWords W.toList)) 0 n = W) ∧
  (∀ (B : Nat → Byte) (off n : Nat),
    encodeWords (decodeWords B off n).toList = (List.range (4 * n)).map fun j => B (off + j))

/-- STATUS shows FAULT, CAUSE and PHASE in their places and reads 0 elsewhere. For every state bit 0 of STATUS is FAULT, bits 2:1 are CAUSE (0 none, 1 BoundsFault, 2 IllegalCommand), bit 3 is PHASE and bits 31:4 are 0; after reset it is 0. -/
def Obligations.StatusLayout : Prop :=
  (∀ s : State, s.status.getLsbD 0 = s.fault ∧
    (s.status.extractLsb' 1 2).toNat = (match s.cause with | .none => 0 | .bounds => 1 | .illegal => 2) ∧
    (s.status.getLsbD 3 = true ↔ s.phase = .updating) ∧ (s.status.extractLsb' 4 28).toNat = 0) ∧
  State.reset.status = 0#32

/-- The response word holds CODE in bits 1:0 and zeros above. For every response bits 31:2 of its word are 0 and the word is 0 for OK, 1 for BOUNDS_FAULT, 2 for ILLEGAL_COMMAND, 3 for REFUSED. -/
def Obligations.ResponseWordLayout : Prop :=
  ∀ r : Response, r.word.extractLsb' 2 30 = 0#30 ∧
    r.word.toNat = (match r.code with | .ok => 0 | .boundsFault => 1 | .illegalCommand => 2 | .refused => 3)

/-- A step produces a response exactly when it consumes a whole command. After a step that answers a next state, RSP holds a response exactly when, between commands, the words received complete a command or are an illegal header; micro-operations, reset, a presented source, partial reception and idling produce none (that RSP holds the response of the last transition is the model's choice of log 6). -/
def Obligations.OneResponsePerCommand : Prop :=
  ∀ s t : State, step s = .next t →
    (t.rsp ≠ none ↔ s.compressing = false ∧
      ((∃ i evs, receive s.rx s.inbox = .command i evs) ∨ ∃ evs, receive s.rx s.inbox = .illegal evs))

/-- DIGEST changes only by FINALIZE, INIT or hardware reset. If a step changes DIGEST, it consumed RST, or an INIT or a FINALIZE, between commands and (for the commands) with FAULT = 0. -/
def Obligations.DigestOnlyChangedByInitFinalizeReset : Prop :=
  ∀ s t : State, step s = .next t → t.digest ≠ s.digest → s.compressing = false ∧
    (s.inbox.head? = some .rst ∨
      (s.fault = false ∧ ∃ evs, receive s.rx s.inbox = .command .init evs ∨ receive s.rx s.inbox = .command .finalize evs))

/-- S, bitCount, BUF and pendingLen change only by the feed-forward or by a command or reset that the access table names. If a step changes S, bitCount, BUF or pendingLen, it ran FEEDFORWARD (which changes S alone of these), or it consumed RST, or it consumed a command between commands with FAULT = 0. -/
def Obligations.ChainingStateWrittenOnlyBy : Prop :=
  ∀ s t : State, step s = .next t →
    (t.S ≠ s.S ∨ t.countLo ≠ s.countLo ∨ t.countHi ≠ s.countHi ∨ t.buf ≠ s.buf ∨ t.pendingLen ≠ s.pendingLen) →
    (s.compressing = true ∧ s.sc = 48#6 ∧ t.countLo = s.countLo ∧ t.countHi = s.countHi ∧ t.buf = s.buf ∧
      t.pendingLen = s.pendingLen) ∨
    (s.compressing = false ∧ s.inbox.head? = some .rst) ∨
    (s.compressing = false ∧ s.fault = false ∧ ∃ i evs, receive s.rx s.inbox = .command i evs)

/-- No transition but the host's own presentation changes SRC. If a step answers a next state and its oldest input was not a source window presented between commands, SRC_SIZE and every byte of SRC are as before (that a hardware reset leaves SRC is the model's choice of log 10). -/
def Obligations.SourceWrittenOnlyByHost : Prop :=
  ∀ s t : State, step s = .next t → (∀ bytes, s.compressing = false → s.inbox.head? ≠ some (.src bytes)) →
    t.srcSize = s.srcSize ∧ ∀ a, t.srcByte a = s.srcByte a

/-- An instance moves alone: no other instance changes, and none influences it. If instance k of a platform makes a transition, every other instance is as before, the number of instances is as before, and what instance k becomes is a step of its own state alone, whatever the others are. -/
def Obligations.InstancesShareNothing : Prop :=
  ∀ (p q : Platform) (k : Nat), Platform.stepAt k p = .next q →
    q.cores.length = p.cores.length ∧ (∀ j, j ≠ k → q.cores[j]? = p.cores[j]?) ∧
    (∀ s, p.cores[k]? = some s → ∃ t, step s = .next t ∧ q.cores[k]? = some t)

/-- HASH, UPDATE_ALL and RESTART are exact expansions. Whatever the current source size and the lines after it, HASH len puts on the inputs what INIT, UPDATE 0, len, FINALIZE put; UPDATE_ALL what UPDATE 0, SRC_SIZE puts; RESTART what INIT puts; and UPDATE 0, 3 encodes as 0x00000002 0x00000000 0x00000003. -/
def Obligations.PseudoCommandsExpand : Prop :=
  (∀ (n len : Nat) (ls : List Line),
    assemble n (.hash len :: ls) = assemble n (.init :: .update 0 len :: .finalize :: ls) ∧
    assemble n (.updateAll :: ls) = assemble n (.update 0 n :: ls) ∧
    assemble n (.restart :: ls) = assemble n (.init :: ls)) ∧
  commandWords (.update 0 3) = [0x00000002#32, 0x00000000#32, 0x00000003#32]
end

