-- ==== Sys2Proof/Laws/Codec.lean ====
section
/-! SUPPORT. The codec: each word decoded, the length of an encoding, and which bytes a decoding depends on. -/

namespace Sys2Proof.Machine

@[simp] theorem decodeWords_getElem (B : Nat → Byte) (off n i : Nat) (h : i < n) :
    (decodeWords B off n)[i] =
      le32 (B (off + 4 * i)) (B (off + 4 * i + 1)) (B (off + 4 * i + 2)) (B (off + 4 * i + 3)) := by
  simp [decodeWords]

/-- A decoding depends on the 4n bytes it covers alone. -/
theorem decodeWords_congr {B B' : Nat → Byte} {p p' n : Nat} (h : ∀ j, j < 4 * n → B (p + j) = B' (p' + j)) :
    decodeWords B p n = decodeWords B' p' n := by
  ext i hi : 1
  simp only [decodeWords_getElem]
  have h0 := h (4 * i) (by omega)
  have h1 := h (4 * i + 1) (by omega)
  have h2 := h (4 * i + 2) (by omega)
  have h3 := h (4 * i + 3) (by omega)
  simp only [← Nat.add_assoc] at h1 h2 h3
  rw [h0, h1, h2, h3]

@[simp] theorem encode32_length (w : Word) : (encode32 w).length = 4 := rfl

@[simp] theorem encodeWords_nil : encodeWords [] = [] := rfl

@[simp] theorem encodeWords_cons (w : Word) (ws : List Word) : encodeWords (w :: ws) = encode32 w ++ encodeWords ws := rfl

@[simp] theorem encodeWords_length (ws : List Word) : (encodeWords ws).length = 4 * ws.length := by
  induction ws with
  | nil => rfl
  | cons w ws ih => simp [ih]; omega

/-- Decoding the bytes of a word gives the word. -/
theorem le32_encode32 (w : Word) :
    le32 (w.extractLsb' 0 8) (w.extractLsb' 8 8) (w.extractLsb' 16 8) (w.extractLsb' 24 8) = w := by
  ext i hi
  simp only [le32, BitVec.getElem_or, BitVec.getElem_shiftLeft, BitVec.getElem_setWidth,
    BitVec.getLsbD_extractLsb']
  have hw : w[i] = w.getLsbD i := by simp [BitVec.getLsbD_eq_getElem, hi]
  rw [hw]
  rcases Nat.lt_or_ge i 8 with h | h
  · simp [h, show i < 16 by omega, show i < 24 by omega]
  · rcases Nat.lt_or_ge i 16 with h' | h'
    · simp [show ¬ i < 8 by omega, h', show i < 24 by omega, show i - 8 < 8 by omega, show 8 + (i - 8) = i by omega]
    · rcases Nat.lt_or_ge i 24 with h'' | h''
      · simp [show ¬ i < 8 by omega, show ¬ i < 16 by omega, h'', show i - 16 < 8 by omega, show ¬ i - 8 < 8 by omega,
          show 16 + (i - 16) = i by omega]
      · simp [show ¬ i < 8 by omega, show ¬ i < 16 by omega, show ¬ i < 24 by omega, show i - 24 < 8 by omega,
          show ¬ i - 16 < 8 by omega, show ¬ i - 8 < 8 by omega, show 24 + (i - 24) = i by omega]

/-- The bytes of a word decoded from four bytes are those bytes. -/
theorem encode32_le32 (b0 b1 b2 b3 : Byte) : encode32 (le32 b0 b1 b2 b3) = [b0, b1, b2, b3] := by
  have hz : ∀ (b : Byte) (k : Nat), 8 ≤ k → b.getLsbD k = false := fun b k hk => BitVec.getLsbD_of_ge b k hk
  simp only [encode32, List.cons.injEq, and_true]
  refine ⟨?_, ?_, ?_, ?_⟩
  all_goals
    apply BitVec.eq_of_getLsbD_eq
    intro i hi
    simp only [le32, BitVec.getLsbD_extractLsb', BitVec.getLsbD_or, BitVec.getLsbD_shiftLeft, BitVec.getLsbD_setWidth,
      hi, decide_true, Bool.true_and]
  · simp [show i < 32 by omega, show i < 16 by omega, show i < 24 by omega, hi]
  · simp [show 8 + i < 32 by omega, show 8 + i < 16 by omega, show 8 + i < 24 by omega, show i < 32 by omega]
  · simp [show 16 + i < 32 by omega, show 16 + i < 24 by omega, show i < 32 by omega, show 16 + i - 8 = 8 + i by omega]
    intro h
    rw [hz b0 (16 + i) (by omega)] at h
    cases h
  · simp [show 24 + i < 32 by omega, show i < 32 by omega, show 24 + i - 8 = 16 + i by omega,
      show 24 + i - 16 = 8 + i by omega]
    rw [hz b0 (24 + i) (by omega), hz b1 (16 + i) (by omega)]
    simp

end Sys2Proof.Machine
end

