-- ==== Sys2Proof/Laws/State.lean ====
section
/-! SUPPORT. What each named update of the state does to each field, one lemma per field, true by rfl. -/

namespace Sys2Proof.Machine

@[simp] theorem respond_S (code : RspCode) (s : State) : (respond code s).S = s.S := rfl
@[simp] theorem respond_countLo (code : RspCode) (s : State) : (respond code s).countLo = s.countLo := rfl
@[simp] theorem respond_countHi (code : RspCode) (s : State) : (respond code s).countHi = s.countHi := rfl
@[simp] theorem respond_buf (code : RspCode) (s : State) : (respond code s).buf = s.buf := rfl
@[simp] theorem respond_pendingLen (code : RspCode) (s : State) : (respond code s).pendingLen = s.pendingLen := rfl
@[simp] theorem respond_digest (code : RspCode) (s : State) : (respond code s).digest = s.digest := rfl
@[simp] theorem respond_X (code : RspCode) (s : State) : (respond code s).X = s.X := rfl
@[simp] theorem respond_work (code : RspCode) (s : State) : (respond code s).work = s.work := rfl
@[simp] theorem respond_sc (code : RspCode) (s : State) : (respond code s).sc = s.sc := rfl
@[simp] theorem respond_phase (code : RspCode) (s : State) : (respond code s).phase = s.phase := rfl
@[simp] theorem respond_fault (code : RspCode) (s : State) : (respond code s).fault = s.fault := rfl
@[simp] theorem respond_cause (code : RspCode) (s : State) : (respond code s).cause = s.cause := rfl
@[simp] theorem respond_rsp (code : RspCode) (s : State) : (respond code s).rsp = some ⟨code, none⟩ := rfl
@[simp] theorem respond_rx (code : RspCode) (s : State) : (respond code s).rx = s.rx := rfl
@[simp] theorem respond_srcSize (code : RspCode) (s : State) : (respond code s).srcSize = s.srcSize := rfl
@[simp] theorem respond_srcMem (code : RspCode) (s : State) : (respond code s).srcMem = s.srcMem := rfl
@[simp] theorem respond_inbox (code : RspCode) (s : State) : (respond code s).inbox = s.inbox := rfl
@[simp] theorem respond_compressing (code : RspCode) (s : State) : (respond code s).compressing = s.compressing := rfl
@[simp] theorem respond_freeCount (code : RspCode) (s : State) : (respond code s).freeCount = s.freeCount := rfl

@[simp] theorem respondDigest_S (s : State) : (respondDigest s).S = s.S := rfl
@[simp] theorem respondDigest_countLo (s : State) : (respondDigest s).countLo = s.countLo := rfl
@[simp] theorem respondDigest_countHi (s : State) : (respondDigest s).countHi = s.countHi := rfl
@[simp] theorem respondDigest_buf (s : State) : (respondDigest s).buf = s.buf := rfl
@[simp] theorem respondDigest_pendingLen (s : State) : (respondDigest s).pendingLen = s.pendingLen := rfl
@[simp] theorem respondDigest_digest (s : State) : (respondDigest s).digest = s.digest := rfl
@[simp] theorem respondDigest_X (s : State) : (respondDigest s).X = s.X := rfl
@[simp] theorem respondDigest_work (s : State) : (respondDigest s).work = s.work := rfl
@[simp] theorem respondDigest_sc (s : State) : (respondDigest s).sc = s.sc := rfl
@[simp] theorem respondDigest_phase (s : State) : (respondDigest s).phase = s.phase := rfl
@[simp] theorem respondDigest_fault (s : State) : (respondDigest s).fault = s.fault := rfl
@[simp] theorem respondDigest_cause (s : State) : (respondDigest s).cause = s.cause := rfl
@[simp] theorem respondDigest_rsp (s : State) : (respondDigest s).rsp = some ⟨.ok, some s.digest⟩ := rfl
@[simp] theorem respondDigest_rx (s : State) : (respondDigest s).rx = s.rx := rfl
@[simp] theorem respondDigest_srcSize (s : State) : (respondDigest s).srcSize = s.srcSize := rfl
@[simp] theorem respondDigest_srcMem (s : State) : (respondDigest s).srcMem = s.srcMem := rfl
@[simp] theorem respondDigest_inbox (s : State) : (respondDigest s).inbox = s.inbox := rfl
@[simp] theorem respondDigest_compressing (s : State) : (respondDigest s).compressing = s.compressing := rfl
@[simp] theorem respondDigest_freeCount (s : State) : (respondDigest s).freeCount = s.freeCount := rfl

@[simp] theorem clearResponse_S (s : State) : (clearResponse s).S = s.S := rfl
@[simp] theorem clearResponse_countLo (s : State) : (clearResponse s).countLo = s.countLo := rfl
@[simp] theorem clearResponse_countHi (s : State) : (clearResponse s).countHi = s.countHi := rfl
@[simp] theorem clearResponse_buf (s : State) : (clearResponse s).buf = s.buf := rfl
@[simp] theorem clearResponse_pendingLen (s : State) : (clearResponse s).pendingLen = s.pendingLen := rfl
@[simp] theorem clearResponse_digest (s : State) : (clearResponse s).digest = s.digest := rfl
@[simp] theorem clearResponse_X (s : State) : (clearResponse s).X = s.X := rfl
@[simp] theorem clearResponse_work (s : State) : (clearResponse s).work = s.work := rfl
@[simp] theorem clearResponse_sc (s : State) : (clearResponse s).sc = s.sc := rfl
@[simp] theorem clearResponse_phase (s : State) : (clearResponse s).phase = s.phase := rfl
@[simp] theorem clearResponse_fault (s : State) : (clearResponse s).fault = s.fault := rfl
@[simp] theorem clearResponse_cause (s : State) : (clearResponse s).cause = s.cause := rfl
@[simp] theorem clearResponse_rsp (s : State) : (clearResponse s).rsp = none := rfl
@[simp] theorem clearResponse_rx (s : State) : (clearResponse s).rx = s.rx := rfl
@[simp] theorem clearResponse_srcSize (s : State) : (clearResponse s).srcSize = s.srcSize := rfl
@[simp] theorem clearResponse_srcMem (s : State) : (clearResponse s).srcMem = s.srcMem := rfl
@[simp] theorem clearResponse_inbox (s : State) : (clearResponse s).inbox = s.inbox := rfl
@[simp] theorem clearResponse_compressing (s : State) : (clearResponse s).compressing = s.compressing := rfl
@[simp] theorem clearResponse_freeCount (s : State) : (clearResponse s).freeCount = s.freeCount := rfl

@[simp] theorem raiseFault_S (c : Cause) (s : State) : (raiseFault c s).S = s.S := rfl
@[simp] theorem raiseFault_countLo (c : Cause) (s : State) : (raiseFault c s).countLo = s.countLo := rfl
@[simp] theorem raiseFault_countHi (c : Cause) (s : State) : (raiseFault c s).countHi = s.countHi := rfl
@[simp] theorem raiseFault_buf (c : Cause) (s : State) : (raiseFault c s).buf = s.buf := rfl
@[simp] theorem raiseFault_pendingLen (c : Cause) (s : State) : (raiseFault c s).pendingLen = s.pendingLen := rfl
@[simp] theorem raiseFault_digest (c : Cause) (s : State) : (raiseFault c s).digest = s.digest := rfl
@[simp] theorem raiseFault_X (c : Cause) (s : State) : (raiseFault c s).X = s.X := rfl
@[simp] theorem raiseFault_work (c : Cause) (s : State) : (raiseFault c s).work = s.work := rfl
@[simp] theorem raiseFault_sc (c : Cause) (s : State) : (raiseFault c s).sc = s.sc := rfl
@[simp] theorem raiseFault_phase (c : Cause) (s : State) : (raiseFault c s).phase = s.phase := rfl
@[simp] theorem raiseFault_fault (c : Cause) (s : State) : (raiseFault c s).fault = true := rfl
@[simp] theorem raiseFault_cause (c : Cause) (s : State) : (raiseFault c s).cause = c := rfl
@[simp] theorem raiseFault_rsp (c : Cause) (s : State) : (raiseFault c s).rsp = some ⟨c.code, none⟩ := rfl
@[simp] theorem raiseFault_rx (c : Cause) (s : State) : (raiseFault c s).rx = s.rx := rfl
@[simp] theorem raiseFault_srcSize (c : Cause) (s : State) : (raiseFault c s).srcSize = s.srcSize := rfl
@[simp] theorem raiseFault_srcMem (c : Cause) (s : State) : (raiseFault c s).srcMem = s.srcMem := rfl
@[simp] theorem raiseFault_inbox (c : Cause) (s : State) : (raiseFault c s).inbox = s.inbox := rfl
@[simp] theorem raiseFault_compressing (c : Cause) (s : State) : (raiseFault c s).compressing = s.compressing := rfl
@[simp] theorem raiseFault_freeCount (c : Cause) (s : State) : (raiseFault c s).freeCount = s.freeCount := rfl

@[simp] theorem refuse_S (s : State) : (refuse s).S = s.S := rfl
@[simp] theorem refuse_countLo (s : State) : (refuse s).countLo = s.countLo := rfl
@[simp] theorem refuse_countHi (s : State) : (refuse s).countHi = s.countHi := rfl
@[simp] theorem refuse_buf (s : State) : (refuse s).buf = s.buf := rfl
@[simp] theorem refuse_pendingLen (s : State) : (refuse s).pendingLen = s.pendingLen := rfl
@[simp] theorem refuse_digest (s : State) : (refuse s).digest = s.digest := rfl
@[simp] theorem refuse_X (s : State) : (refuse s).X = s.X := rfl
@[simp] theorem refuse_work (s : State) : (refuse s).work = s.work := rfl
@[simp] theorem refuse_sc (s : State) : (refuse s).sc = s.sc := rfl
@[simp] theorem refuse_phase (s : State) : (refuse s).phase = s.phase := rfl
@[simp] theorem refuse_fault (s : State) : (refuse s).fault = s.fault := rfl
@[simp] theorem refuse_cause (s : State) : (refuse s).cause = s.cause := rfl
@[simp] theorem refuse_rsp (s : State) : (refuse s).rsp = some ⟨.refused, none⟩ := rfl
@[simp] theorem refuse_rx (s : State) : (refuse s).rx = s.rx := rfl
@[simp] theorem refuse_srcSize (s : State) : (refuse s).srcSize = s.srcSize := rfl
@[simp] theorem refuse_srcMem (s : State) : (refuse s).srcMem = s.srcMem := rfl
@[simp] theorem refuse_inbox (s : State) : (refuse s).inbox = s.inbox := rfl
@[simp] theorem refuse_compressing (s : State) : (refuse s).compressing = s.compressing := rfl
@[simp] theorem refuse_freeCount (s : State) : (refuse s).freeCount = s.freeCount := rfl

@[simp] theorem presentSource_S (bytes : List Byte) (s : State) : (presentSource bytes s).S = s.S := rfl
@[simp] theorem presentSource_countLo (bytes : List Byte) (s : State) : (presentSource bytes s).countLo = s.countLo := rfl
@[simp] theorem presentSource_countHi (bytes : List Byte) (s : State) : (presentSource bytes s).countHi = s.countHi := rfl
@[simp] theorem presentSource_buf (bytes : List Byte) (s : State) : (presentSource bytes s).buf = s.buf := rfl
@[simp] theorem presentSource_pendingLen (bytes : List Byte) (s : State) : (presentSource bytes s).pendingLen = s.pendingLen := rfl
@[simp] theorem presentSource_digest (bytes : List Byte) (s : State) : (presentSource bytes s).digest = s.digest := rfl
@[simp] theorem presentSource_X (bytes : List Byte) (s : State) : (presentSource bytes s).X = s.X := rfl
@[simp] theorem presentSource_work (bytes : List Byte) (s : State) : (presentSource bytes s).work = s.work := rfl
@[simp] theorem presentSource_sc (bytes : List Byte) (s : State) : (presentSource bytes s).sc = s.sc := rfl
@[simp] theorem presentSource_phase (bytes : List Byte) (s : State) : (presentSource bytes s).phase = s.phase := rfl
@[simp] theorem presentSource_fault (bytes : List Byte) (s : State) : (presentSource bytes s).fault = s.fault := rfl
@[simp] theorem presentSource_cause (bytes : List Byte) (s : State) : (presentSource bytes s).cause = s.cause := rfl
@[simp] theorem presentSource_rsp (bytes : List Byte) (s : State) : (presentSource bytes s).rsp = s.rsp := rfl
@[simp] theorem presentSource_rx (bytes : List Byte) (s : State) : (presentSource bytes s).rx = s.rx := rfl
@[simp] theorem presentSource_srcSize (bytes : List Byte) (s : State) : (presentSource bytes s).srcSize = bytes.length := rfl
@[simp] theorem presentSource_srcMem (bytes : List Byte) (s : State) : (presentSource bytes s).srcMem = Memory.ofBytes bytes := rfl
@[simp] theorem presentSource_inbox (bytes : List Byte) (s : State) : (presentSource bytes s).inbox = s.inbox := rfl
@[simp] theorem presentSource_compressing (bytes : List Byte) (s : State) : (presentSource bytes s).compressing = s.compressing := rfl
@[simp] theorem presentSource_freeCount (bytes : List Byte) (s : State) : (presentSource bytes s).freeCount = s.freeCount := rfl

@[simp] theorem clearDigest_S (s : State) : (clearDigest s).S = s.S := rfl
@[simp] theorem clearDigest_countLo (s : State) : (clearDigest s).countLo = s.countLo := rfl
@[simp] theorem clearDigest_countHi (s : State) : (clearDigest s).countHi = s.countHi := rfl
@[simp] theorem clearDigest_buf (s : State) : (clearDigest s).buf = s.buf := rfl
@[simp] theorem clearDigest_pendingLen (s : State) : (clearDigest s).pendingLen = s.pendingLen := rfl
@[simp] theorem clearDigest_digest (s : State) : (clearDigest s).digest = Vector.replicate 16 0x00#8 := rfl
@[simp] theorem clearDigest_X (s : State) : (clearDigest s).X = s.X := rfl
@[simp] theorem clearDigest_work (s : State) : (clearDigest s).work = s.work := rfl
@[simp] theorem clearDigest_sc (s : State) : (clearDigest s).sc = s.sc := rfl
@[simp] theorem clearDigest_phase (s : State) : (clearDigest s).phase = s.phase := rfl
@[simp] theorem clearDigest_fault (s : State) : (clearDigest s).fault = s.fault := rfl
@[simp] theorem clearDigest_cause (s : State) : (clearDigest s).cause = s.cause := rfl
@[simp] theorem clearDigest_rsp (s : State) : (clearDigest s).rsp = s.rsp := rfl
@[simp] theorem clearDigest_rx (s : State) : (clearDigest s).rx = s.rx := rfl
@[simp] theorem clearDigest_srcSize (s : State) : (clearDigest s).srcSize = s.srcSize := rfl
@[simp] theorem clearDigest_srcMem (s : State) : (clearDigest s).srcMem = s.srcMem := rfl
@[simp] theorem clearDigest_inbox (s : State) : (clearDigest s).inbox = s.inbox := rfl
@[simp] theorem clearDigest_compressing (s : State) : (clearDigest s).compressing = s.compressing := rfl
@[simp] theorem clearDigest_freeCount (s : State) : (clearDigest s).freeCount = s.freeCount := rfl

@[simp] theorem contextReset_S (s : State) : (contextReset s).S = initialState := rfl
@[simp] theorem contextReset_countLo (s : State) : (contextReset s).countLo = 0#32 := rfl
@[simp] theorem contextReset_countHi (s : State) : (contextReset s).countHi = 0#32 := rfl
@[simp] theorem contextReset_buf (s : State) : (contextReset s).buf = Vector.replicate 64 0x00#8 := rfl
@[simp] theorem contextReset_pendingLen (s : State) : (contextReset s).pendingLen = 0 := rfl
@[simp] theorem contextReset_digest (s : State) : (contextReset s).digest = s.digest := rfl
@[simp] theorem contextReset_X (s : State) : (contextReset s).X = Vector.replicate 16 0#32 := rfl
@[simp] theorem contextReset_work (s : State) : (contextReset s).work = s.work := rfl
@[simp] theorem contextReset_sc (s : State) : (contextReset s).sc = 0#6 := rfl
@[simp] theorem contextReset_phase (s : State) : (contextReset s).phase = s.phase := rfl
@[simp] theorem contextReset_fault (s : State) : (contextReset s).fault = s.fault := rfl
@[simp] theorem contextReset_cause (s : State) : (contextReset s).cause = s.cause := rfl
@[simp] theorem contextReset_rsp (s : State) : (contextReset s).rsp = s.rsp := rfl
@[simp] theorem contextReset_rx (s : State) : (contextReset s).rx = s.rx := rfl
@[simp] theorem contextReset_srcSize (s : State) : (contextReset s).srcSize = s.srcSize := rfl
@[simp] theorem contextReset_srcMem (s : State) : (contextReset s).srcMem = s.srcMem := rfl
@[simp] theorem contextReset_inbox (s : State) : (contextReset s).inbox = s.inbox := rfl
@[simp] theorem contextReset_compressing (s : State) : (contextReset s).compressing = false := rfl
@[simp] theorem contextReset_freeCount (s : State) : (contextReset s).freeCount = s.freeCount := rfl

@[simp] theorem hardwareReset_S (s : State) : (hardwareReset s).S = initialState := rfl
@[simp] theorem hardwareReset_countLo (s : State) : (hardwareReset s).countLo = 0#32 := rfl
@[simp] theorem hardwareReset_countHi (s : State) : (hardwareReset s).countHi = 0#32 := rfl
@[simp] theorem hardwareReset_buf (s : State) : (hardwareReset s).buf = Vector.replicate 64 0x00#8 := rfl
@[simp] theorem hardwareReset_pendingLen (s : State) : (hardwareReset s).pendingLen = 0 := rfl
@[simp] theorem hardwareReset_digest (s : State) : (hardwareReset s).digest = Vector.replicate 16 0x00#8 := rfl
@[simp] theorem hardwareReset_X (s : State) : (hardwareReset s).X = Vector.replicate 16 0#32 := rfl
@[simp] theorem hardwareReset_work (s : State) : (hardwareReset s).work = s.work := rfl
@[simp] theorem hardwareReset_sc (s : State) : (hardwareReset s).sc = 0#6 := rfl
@[simp] theorem hardwareReset_phase (s : State) : (hardwareReset s).phase = .initialized := rfl
@[simp] theorem hardwareReset_fault (s : State) : (hardwareReset s).fault = false := rfl
@[simp] theorem hardwareReset_cause (s : State) : (hardwareReset s).cause = .none := rfl
@[simp] theorem hardwareReset_rsp (s : State) : (hardwareReset s).rsp = none := rfl
@[simp] theorem hardwareReset_rx (s : State) : (hardwareReset s).rx = [] := rfl
@[simp] theorem hardwareReset_srcSize (s : State) : (hardwareReset s).srcSize = s.srcSize := rfl
@[simp] theorem hardwareReset_srcMem (s : State) : (hardwareReset s).srcMem = s.srcMem := rfl
@[simp] theorem hardwareReset_inbox (s : State) : (hardwareReset s).inbox = s.inbox := rfl
@[simp] theorem hardwareReset_compressing (s : State) : (hardwareReset s).compressing = false := rfl
@[simp] theorem hardwareReset_freeCount (s : State) : (hardwareReset s).freeCount = s.freeCount := rfl

@[simp] theorem microStep_S (n : Nat) (t x y z : Reg) (fn : Word → Word → Word → Word) (k : Fin 16) (const : Word) (sh : Nat) (s : State) : (microStep n t x y z fn k const sh s).S = s.S := rfl
@[simp] theorem microStep_countLo (n : Nat) (t x y z : Reg) (fn : Word → Word → Word → Word) (k : Fin 16) (const : Word) (sh : Nat) (s : State) : (microStep n t x y z fn k const sh s).countLo = s.countLo := rfl
@[simp] theorem microStep_countHi (n : Nat) (t x y z : Reg) (fn : Word → Word → Word → Word) (k : Fin 16) (const : Word) (sh : Nat) (s : State) : (microStep n t x y z fn k const sh s).countHi = s.countHi := rfl
@[simp] theorem microStep_buf (n : Nat) (t x y z : Reg) (fn : Word → Word → Word → Word) (k : Fin 16) (const : Word) (sh : Nat) (s : State) : (microStep n t x y z fn k const sh s).buf = s.buf := rfl
@[simp] theorem microStep_pendingLen (n : Nat) (t x y z : Reg) (fn : Word → Word → Word → Word) (k : Fin 16) (const : Word) (sh : Nat) (s : State) : (microStep n t x y z fn k const sh s).pendingLen = s.pendingLen := rfl
@[simp] theorem microStep_digest (n : Nat) (t x y z : Reg) (fn : Word → Word → Word → Word) (k : Fin 16) (const : Word) (sh : Nat) (s : State) : (microStep n t x y z fn k const sh s).digest = s.digest := rfl
@[simp] theorem microStep_X (n : Nat) (t x y z : Reg) (fn : Word → Word → Word → Word) (k : Fin 16) (const : Word) (sh : Nat) (s : State) : (microStep n t x y z fn k const sh s).X = s.X := rfl
@[simp] theorem microStep_work (n : Nat) (t x y z : Reg) (fn : Word → Word → Word → Word) (k : Fin 16) (const : Word) (sh : Nat) (s : State) : (microStep n t x y z fn k const sh s).work = roundStep t x y z fn s.X[k] const sh s.work := rfl
@[simp] theorem microStep_sc (n : Nat) (t x y z : Reg) (fn : Word → Word → Word → Word) (k : Fin 16) (const : Word) (sh : Nat) (s : State) : (microStep n t x y z fn k const sh s).sc = BitVec.ofNat 6 (n + 1) := rfl
@[simp] theorem microStep_phase (n : Nat) (t x y z : Reg) (fn : Word → Word → Word → Word) (k : Fin 16) (const : Word) (sh : Nat) (s : State) : (microStep n t x y z fn k const sh s).phase = s.phase := rfl
@[simp] theorem microStep_fault (n : Nat) (t x y z : Reg) (fn : Word → Word → Word → Word) (k : Fin 16) (const : Word) (sh : Nat) (s : State) : (microStep n t x y z fn k const sh s).fault = s.fault := rfl
@[simp] theorem microStep_cause (n : Nat) (t x y z : Reg) (fn : Word → Word → Word → Word) (k : Fin 16) (const : Word) (sh : Nat) (s : State) : (microStep n t x y z fn k const sh s).cause = s.cause := rfl
@[simp] theorem microStep_rsp (n : Nat) (t x y z : Reg) (fn : Word → Word → Word → Word) (k : Fin 16) (const : Word) (sh : Nat) (s : State) : (microStep n t x y z fn k const sh s).rsp = s.rsp := rfl
@[simp] theorem microStep_rx (n : Nat) (t x y z : Reg) (fn : Word → Word → Word → Word) (k : Fin 16) (const : Word) (sh : Nat) (s : State) : (microStep n t x y z fn k const sh s).rx = s.rx := rfl
@[simp] theorem microStep_srcSize (n : Nat) (t x y z : Reg) (fn : Word → Word → Word → Word) (k : Fin 16) (const : Word) (sh : Nat) (s : State) : (microStep n t x y z fn k const sh s).srcSize = s.srcSize := rfl
@[simp] theorem microStep_srcMem (n : Nat) (t x y z : Reg) (fn : Word → Word → Word → Word) (k : Fin 16) (const : Word) (sh : Nat) (s : State) : (microStep n t x y z fn k const sh s).srcMem = s.srcMem := rfl
@[simp] theorem microStep_inbox (n : Nat) (t x y z : Reg) (fn : Word → Word → Word → Word) (k : Fin 16) (const : Word) (sh : Nat) (s : State) : (microStep n t x y z fn k const sh s).inbox = s.inbox := rfl
@[simp] theorem microStep_compressing (n : Nat) (t x y z : Reg) (fn : Word → Word → Word → Word) (k : Fin 16) (const : Word) (sh : Nat) (s : State) : (microStep n t x y z fn k const sh s).compressing = s.compressing := rfl
@[simp] theorem microStep_freeCount (n : Nat) (t x y z : Reg) (fn : Word → Word → Word → Word) (k : Fin 16) (const : Word) (sh : Nat) (s : State) : (microStep n t x y z fn k const sh s).freeCount = s.freeCount := rfl

@[simp] theorem startCompression_S (B : Nat → Byte) (p : Nat) (s : State) : (startCompression B p s).S = s.S := rfl
@[simp] theorem startCompression_countLo (B : Nat → Byte) (p : Nat) (s : State) : (startCompression B p s).countLo = s.countLo := rfl
@[simp] theorem startCompression_countHi (B : Nat → Byte) (p : Nat) (s : State) : (startCompression B p s).countHi = s.countHi := rfl
@[simp] theorem startCompression_buf (B : Nat → Byte) (p : Nat) (s : State) : (startCompression B p s).buf = s.buf := rfl
@[simp] theorem startCompression_pendingLen (B : Nat → Byte) (p : Nat) (s : State) : (startCompression B p s).pendingLen = s.pendingLen := rfl
@[simp] theorem startCompression_digest (B : Nat → Byte) (p : Nat) (s : State) : (startCompression B p s).digest = s.digest := rfl
@[simp] theorem startCompression_X (B : Nat → Byte) (p : Nat) (s : State) : (startCompression B p s).X = decodeWords B p 16 := rfl
@[simp] theorem startCompression_work (B : Nat → Byte) (p : Nat) (s : State) : (startCompression B p s).work = loadWorking s.S := rfl
@[simp] theorem startCompression_sc (B : Nat → Byte) (p : Nat) (s : State) : (startCompression B p s).sc = 0#6 := rfl
@[simp] theorem startCompression_phase (B : Nat → Byte) (p : Nat) (s : State) : (startCompression B p s).phase = s.phase := rfl
@[simp] theorem startCompression_fault (B : Nat → Byte) (p : Nat) (s : State) : (startCompression B p s).fault = s.fault := rfl
@[simp] theorem startCompression_cause (B : Nat → Byte) (p : Nat) (s : State) : (startCompression B p s).cause = s.cause := rfl
@[simp] theorem startCompression_rsp (B : Nat → Byte) (p : Nat) (s : State) : (startCompression B p s).rsp = s.rsp := rfl
@[simp] theorem startCompression_rx (B : Nat → Byte) (p : Nat) (s : State) : (startCompression B p s).rx = s.rx := rfl
@[simp] theorem startCompression_srcSize (B : Nat → Byte) (p : Nat) (s : State) : (startCompression B p s).srcSize = s.srcSize := rfl
@[simp] theorem startCompression_srcMem (B : Nat → Byte) (p : Nat) (s : State) : (startCompression B p s).srcMem = s.srcMem := rfl
@[simp] theorem startCompression_inbox (B : Nat → Byte) (p : Nat) (s : State) : (startCompression B p s).inbox = s.inbox := rfl
@[simp] theorem startCompression_compressing (B : Nat → Byte) (p : Nat) (s : State) : (startCompression B p s).compressing = true := rfl
@[simp] theorem startCompression_freeCount (B : Nat → Byte) (p : Nat) (s : State) : (startCompression B p s).freeCount = s.freeCount := rfl

@[simp] theorem feedForward_S (s : State) : (feedForward s).S = addWorking s.S s.work := rfl
@[simp] theorem feedForward_countLo (s : State) : (feedForward s).countLo = s.countLo := rfl
@[simp] theorem feedForward_countHi (s : State) : (feedForward s).countHi = s.countHi := rfl
@[simp] theorem feedForward_buf (s : State) : (feedForward s).buf = s.buf := rfl
@[simp] theorem feedForward_pendingLen (s : State) : (feedForward s).pendingLen = s.pendingLen := rfl
@[simp] theorem feedForward_digest (s : State) : (feedForward s).digest = s.digest := rfl
@[simp] theorem feedForward_X (s : State) : (feedForward s).X = s.X := rfl
@[simp] theorem feedForward_sc (s : State) : (feedForward s).sc = 0#6 := rfl
@[simp] theorem feedForward_phase (s : State) : (feedForward s).phase = s.phase := rfl
@[simp] theorem feedForward_fault (s : State) : (feedForward s).fault = s.fault := rfl
@[simp] theorem feedForward_cause (s : State) : (feedForward s).cause = s.cause := rfl
@[simp] theorem feedForward_rsp (s : State) : (feedForward s).rsp = s.rsp := rfl
@[simp] theorem feedForward_rx (s : State) : (feedForward s).rx = s.rx := rfl
@[simp] theorem feedForward_srcSize (s : State) : (feedForward s).srcSize = s.srcSize := rfl
@[simp] theorem feedForward_srcMem (s : State) : (feedForward s).srcMem = s.srcMem := rfl
@[simp] theorem feedForward_inbox (s : State) : (feedForward s).inbox = s.inbox := rfl
@[simp] theorem feedForward_compressing (s : State) : (feedForward s).compressing = false := rfl
@[simp] theorem feedForward_freeCount (s : State) : (feedForward s).freeCount = s.freeCount + 4 := rfl

@[simp] theorem compress_S (B : Nat → Byte) (p : Nat) (s : State) : (compress B p s).S = compressWords s.S B p := by simp [compress, compressWords]
@[simp] theorem compress_countLo (B : Nat → Byte) (p : Nat) (s : State) : (compress B p s).countLo = s.countLo := by simp [compress]
@[simp] theorem compress_countHi (B : Nat → Byte) (p : Nat) (s : State) : (compress B p s).countHi = s.countHi := by simp [compress]
@[simp] theorem compress_buf (B : Nat → Byte) (p : Nat) (s : State) : (compress B p s).buf = s.buf := by simp [compress]
@[simp] theorem compress_pendingLen (B : Nat → Byte) (p : Nat) (s : State) : (compress B p s).pendingLen = s.pendingLen := by simp [compress]
@[simp] theorem compress_digest (B : Nat → Byte) (p : Nat) (s : State) : (compress B p s).digest = s.digest := by simp [compress]
@[simp] theorem compress_X (B : Nat → Byte) (p : Nat) (s : State) : (compress B p s).X = decodeWords B p 16 := by simp [compress]
@[simp] theorem compress_sc (B : Nat → Byte) (p : Nat) (s : State) : (compress B p s).sc = 0#6 := by simp [compress]
@[simp] theorem compress_phase (B : Nat → Byte) (p : Nat) (s : State) : (compress B p s).phase = s.phase := by simp [compress]
@[simp] theorem compress_fault (B : Nat → Byte) (p : Nat) (s : State) : (compress B p s).fault = s.fault := by simp [compress]
@[simp] theorem compress_cause (B : Nat → Byte) (p : Nat) (s : State) : (compress B p s).cause = s.cause := by simp [compress]
@[simp] theorem compress_rsp (B : Nat → Byte) (p : Nat) (s : State) : (compress B p s).rsp = s.rsp := by simp [compress]
@[simp] theorem compress_rx (B : Nat → Byte) (p : Nat) (s : State) : (compress B p s).rx = s.rx := by simp [compress]
@[simp] theorem compress_srcSize (B : Nat → Byte) (p : Nat) (s : State) : (compress B p s).srcSize = s.srcSize := by simp [compress]
@[simp] theorem compress_srcMem (B : Nat → Byte) (p : Nat) (s : State) : (compress B p s).srcMem = s.srcMem := by simp [compress]
@[simp] theorem compress_inbox (B : Nat → Byte) (p : Nat) (s : State) : (compress B p s).inbox = s.inbox := by simp [compress]
@[simp] theorem compress_compressing (B : Nat → Byte) (p : Nat) (s : State) : (compress B p s).compressing = false := by simp [compress]
@[simp] theorem compress_freeCount (B : Nat → Byte) (p : Nat) (s : State) : (compress B p s).freeCount = s.freeCount + 4 := by simp [compress]

@[simp] theorem addBitCount_S (n : Nat) (s : State) : (addBitCount n s).S = s.S := rfl
@[simp] theorem addBitCount_countLo (n : Nat) (s : State) : (addBitCount n s).countLo = countLowAfter s.countLo n := rfl
@[simp] theorem addBitCount_countHi (n : Nat) (s : State) : (addBitCount n s).countHi = countHighAfter s.countLo s.countHi n := rfl
@[simp] theorem addBitCount_buf (n : Nat) (s : State) : (addBitCount n s).buf = s.buf := rfl
@[simp] theorem addBitCount_pendingLen (n : Nat) (s : State) : (addBitCount n s).pendingLen = s.pendingLen := rfl
@[simp] theorem addBitCount_digest (n : Nat) (s : State) : (addBitCount n s).digest = s.digest := rfl
@[simp] theorem addBitCount_X (n : Nat) (s : State) : (addBitCount n s).X = s.X := rfl
@[simp] theorem addBitCount_work (n : Nat) (s : State) : (addBitCount n s).work = s.work := rfl
@[simp] theorem addBitCount_sc (n : Nat) (s : State) : (addBitCount n s).sc = s.sc := rfl
@[simp] theorem addBitCount_phase (n : Nat) (s : State) : (addBitCount n s).phase = s.phase := rfl
@[simp] theorem addBitCount_fault (n : Nat) (s : State) : (addBitCount n s).fault = s.fault := rfl
@[simp] theorem addBitCount_cause (n : Nat) (s : State) : (addBitCount n s).cause = s.cause := rfl
@[simp] theorem addBitCount_rsp (n : Nat) (s : State) : (addBitCount n s).rsp = s.rsp := rfl
@[simp] theorem addBitCount_rx (n : Nat) (s : State) : (addBitCount n s).rx = s.rx := rfl
@[simp] theorem addBitCount_srcSize (n : Nat) (s : State) : (addBitCount n s).srcSize = s.srcSize := rfl
@[simp] theorem addBitCount_srcMem (n : Nat) (s : State) : (addBitCount n s).srcMem = s.srcMem := rfl
@[simp] theorem addBitCount_inbox (n : Nat) (s : State) : (addBitCount n s).inbox = s.inbox := rfl
@[simp] theorem addBitCount_compressing (n : Nat) (s : State) : (addBitCount n s).compressing = s.compressing := rfl
@[simp] theorem addBitCount_freeCount (n : Nat) (s : State) : (addBitCount n s).freeCount = s.freeCount := rfl

@[simp] theorem copyIntoBuf_S (start : Nat) (B : Nat → Byte) (o m : Nat) (s : State) : (copyIntoBuf start B o m s).S = s.S := rfl
@[simp] theorem copyIntoBuf_countLo (start : Nat) (B : Nat → Byte) (o m : Nat) (s : State) : (copyIntoBuf start B o m s).countLo = s.countLo := rfl
@[simp] theorem copyIntoBuf_countHi (start : Nat) (B : Nat → Byte) (o m : Nat) (s : State) : (copyIntoBuf start B o m s).countHi = s.countHi := rfl
@[simp] theorem copyIntoBuf_buf (start : Nat) (B : Nat → Byte) (o m : Nat) (s : State) : (copyIntoBuf start B o m s).buf = copyBytes s.buf start B o m := rfl
@[simp] theorem copyIntoBuf_pendingLen (start : Nat) (B : Nat → Byte) (o m : Nat) (s : State) : (copyIntoBuf start B o m s).pendingLen = s.pendingLen := rfl
@[simp] theorem copyIntoBuf_digest (start : Nat) (B : Nat → Byte) (o m : Nat) (s : State) : (copyIntoBuf start B o m s).digest = s.digest := rfl
@[simp] theorem copyIntoBuf_X (start : Nat) (B : Nat → Byte) (o m : Nat) (s : State) : (copyIntoBuf start B o m s).X = s.X := rfl
@[simp] theorem copyIntoBuf_work (start : Nat) (B : Nat → Byte) (o m : Nat) (s : State) : (copyIntoBuf start B o m s).work = s.work := rfl
@[simp] theorem copyIntoBuf_sc (start : Nat) (B : Nat → Byte) (o m : Nat) (s : State) : (copyIntoBuf start B o m s).sc = s.sc := rfl
@[simp] theorem copyIntoBuf_phase (start : Nat) (B : Nat → Byte) (o m : Nat) (s : State) : (copyIntoBuf start B o m s).phase = s.phase := rfl
@[simp] theorem copyIntoBuf_fault (start : Nat) (B : Nat → Byte) (o m : Nat) (s : State) : (copyIntoBuf start B o m s).fault = s.fault := rfl
@[simp] theorem copyIntoBuf_cause (start : Nat) (B : Nat → Byte) (o m : Nat) (s : State) : (copyIntoBuf start B o m s).cause = s.cause := rfl
@[simp] theorem copyIntoBuf_rsp (start : Nat) (B : Nat → Byte) (o m : Nat) (s : State) : (copyIntoBuf start B o m s).rsp = s.rsp := rfl
@[simp] theorem copyIntoBuf_rx (start : Nat) (B : Nat → Byte) (o m : Nat) (s : State) : (copyIntoBuf start B o m s).rx = s.rx := rfl
@[simp] theorem copyIntoBuf_srcSize (start : Nat) (B : Nat → Byte) (o m : Nat) (s : State) : (copyIntoBuf start B o m s).srcSize = s.srcSize := rfl
@[simp] theorem copyIntoBuf_srcMem (start : Nat) (B : Nat → Byte) (o m : Nat) (s : State) : (copyIntoBuf start B o m s).srcMem = s.srcMem := rfl
@[simp] theorem copyIntoBuf_inbox (start : Nat) (B : Nat → Byte) (o m : Nat) (s : State) : (copyIntoBuf start B o m s).inbox = s.inbox := rfl
@[simp] theorem copyIntoBuf_compressing (start : Nat) (B : Nat → Byte) (o m : Nat) (s : State) : (copyIntoBuf start B o m s).compressing = s.compressing := rfl
@[simp] theorem copyIntoBuf_freeCount (start : Nat) (B : Nat → Byte) (o m : Nat) (s : State) : (copyIntoBuf start B o m s).freeCount = s.freeCount := rfl

@[simp] theorem storeTail_S (index : Nat) (B : Nat → Byte) (p m : Nat) (s : State) : (storeTail index B p m s).S = s.S := rfl
@[simp] theorem storeTail_countLo (index : Nat) (B : Nat → Byte) (p m : Nat) (s : State) : (storeTail index B p m s).countLo = s.countLo := rfl
@[simp] theorem storeTail_countHi (index : Nat) (B : Nat → Byte) (p m : Nat) (s : State) : (storeTail index B p m s).countHi = s.countHi := rfl
@[simp] theorem storeTail_buf (index : Nat) (B : Nat → Byte) (p m : Nat) (s : State) : (storeTail index B p m s).buf = copyBytes s.buf index B p m := rfl
@[simp] theorem storeTail_pendingLen (index : Nat) (B : Nat → Byte) (p m : Nat) (s : State) : (storeTail index B p m s).pendingLen = Fin.ofNat 64 (index + m) := rfl
@[simp] theorem storeTail_digest (index : Nat) (B : Nat → Byte) (p m : Nat) (s : State) : (storeTail index B p m s).digest = s.digest := rfl
@[simp] theorem storeTail_X (index : Nat) (B : Nat → Byte) (p m : Nat) (s : State) : (storeTail index B p m s).X = s.X := rfl
@[simp] theorem storeTail_work (index : Nat) (B : Nat → Byte) (p m : Nat) (s : State) : (storeTail index B p m s).work = s.work := rfl
@[simp] theorem storeTail_sc (index : Nat) (B : Nat → Byte) (p m : Nat) (s : State) : (storeTail index B p m s).sc = s.sc := rfl
@[simp] theorem storeTail_phase (index : Nat) (B : Nat → Byte) (p m : Nat) (s : State) : (storeTail index B p m s).phase = s.phase := rfl
@[simp] theorem storeTail_fault (index : Nat) (B : Nat → Byte) (p m : Nat) (s : State) : (storeTail index B p m s).fault = s.fault := rfl
@[simp] theorem storeTail_cause (index : Nat) (B : Nat → Byte) (p m : Nat) (s : State) : (storeTail index B p m s).cause = s.cause := rfl
@[simp] theorem storeTail_rsp (index : Nat) (B : Nat → Byte) (p m : Nat) (s : State) : (storeTail index B p m s).rsp = s.rsp := rfl
@[simp] theorem storeTail_rx (index : Nat) (B : Nat → Byte) (p m : Nat) (s : State) : (storeTail index B p m s).rx = s.rx := rfl
@[simp] theorem storeTail_srcSize (index : Nat) (B : Nat → Byte) (p m : Nat) (s : State) : (storeTail index B p m s).srcSize = s.srcSize := rfl
@[simp] theorem storeTail_srcMem (index : Nat) (B : Nat → Byte) (p m : Nat) (s : State) : (storeTail index B p m s).srcMem = s.srcMem := rfl
@[simp] theorem storeTail_inbox (index : Nat) (B : Nat → Byte) (p m : Nat) (s : State) : (storeTail index B p m s).inbox = s.inbox := rfl
@[simp] theorem storeTail_compressing (index : Nat) (B : Nat → Byte) (p m : Nat) (s : State) : (storeTail index B p m s).compressing = s.compressing := rfl
@[simp] theorem storeTail_freeCount (index : Nat) (B : Nat → Byte) (p m : Nat) (s : State) : (storeTail index B p m s).freeCount = s.freeCount := rfl

@[simp] theorem fillAndCompress_S (index : Nat) (B : Nat → Byte) (o : Nat) (s : State) : (fillAndCompress index B o s).S = compressWords s.S (copyIntoBuf index B o (64 - index) s).bufByte 0 := by simp [fillAndCompress]
@[simp] theorem fillAndCompress_countLo (index : Nat) (B : Nat → Byte) (o : Nat) (s : State) : (fillAndCompress index B o s).countLo = s.countLo := by simp [fillAndCompress]
@[simp] theorem fillAndCompress_countHi (index : Nat) (B : Nat → Byte) (o : Nat) (s : State) : (fillAndCompress index B o s).countHi = s.countHi := by simp [fillAndCompress]
@[simp] theorem fillAndCompress_buf (index : Nat) (B : Nat → Byte) (o : Nat) (s : State) : (fillAndCompress index B o s).buf = copyBytes s.buf index B o (64 - index) := by simp [fillAndCompress]
@[simp] theorem fillAndCompress_pendingLen (index : Nat) (B : Nat → Byte) (o : Nat) (s : State) : (fillAndCompress index B o s).pendingLen = s.pendingLen := by simp [fillAndCompress]
@[simp] theorem fillAndCompress_digest (index : Nat) (B : Nat → Byte) (o : Nat) (s : State) : (fillAndCompress index B o s).digest = s.digest := by simp [fillAndCompress]
@[simp] theorem fillAndCompress_X (index : Nat) (B : Nat → Byte) (o : Nat) (s : State) : (fillAndCompress index B o s).X = decodeWords (copyIntoBuf index B o (64 - index) s).bufByte 0 16 := by simp [fillAndCompress]
@[simp] theorem fillAndCompress_sc (index : Nat) (B : Nat → Byte) (o : Nat) (s : State) : (fillAndCompress index B o s).sc = 0#6 := by simp [fillAndCompress]
@[simp] theorem fillAndCompress_phase (index : Nat) (B : Nat → Byte) (o : Nat) (s : State) : (fillAndCompress index B o s).phase = s.phase := by simp [fillAndCompress]
@[simp] theorem fillAndCompress_fault (index : Nat) (B : Nat → Byte) (o : Nat) (s : State) : (fillAndCompress index B o s).fault = s.fault := by simp [fillAndCompress]
@[simp] theorem fillAndCompress_cause (index : Nat) (B : Nat → Byte) (o : Nat) (s : State) : (fillAndCompress index B o s).cause = s.cause := by simp [fillAndCompress]
@[simp] theorem fillAndCompress_rsp (index : Nat) (B : Nat → Byte) (o : Nat) (s : State) : (fillAndCompress index B o s).rsp = s.rsp := by simp [fillAndCompress]
@[simp] theorem fillAndCompress_rx (index : Nat) (B : Nat → Byte) (o : Nat) (s : State) : (fillAndCompress index B o s).rx = s.rx := by simp [fillAndCompress]
@[simp] theorem fillAndCompress_srcSize (index : Nat) (B : Nat → Byte) (o : Nat) (s : State) : (fillAndCompress index B o s).srcSize = s.srcSize := by simp [fillAndCompress]
@[simp] theorem fillAndCompress_srcMem (index : Nat) (B : Nat → Byte) (o : Nat) (s : State) : (fillAndCompress index B o s).srcMem = s.srcMem := by simp [fillAndCompress]
@[simp] theorem fillAndCompress_inbox (index : Nat) (B : Nat → Byte) (o : Nat) (s : State) : (fillAndCompress index B o s).inbox = s.inbox := by simp [fillAndCompress]
@[simp] theorem fillAndCompress_compressing (index : Nat) (B : Nat → Byte) (o : Nat) (s : State) : (fillAndCompress index B o s).compressing = false := by simp [fillAndCompress]
@[simp] theorem fillAndCompress_freeCount (index : Nat) (B : Nat → Byte) (o : Nat) (s : State) : (fillAndCompress index B o s).freeCount = s.freeCount + 4 := by simp [fillAndCompress]

@[simp] theorem serializeDigest_S (s : State) : (serializeDigest s).S = s.S := rfl
@[simp] theorem serializeDigest_countLo (s : State) : (serializeDigest s).countLo = s.countLo := rfl
@[simp] theorem serializeDigest_countHi (s : State) : (serializeDigest s).countHi = s.countHi := rfl
@[simp] theorem serializeDigest_buf (s : State) : (serializeDigest s).buf = s.buf := rfl
@[simp] theorem serializeDigest_pendingLen (s : State) : (serializeDigest s).pendingLen = s.pendingLen := rfl
@[simp] theorem serializeDigest_digest (s : State) : (serializeDigest s).digest = s.stateBytes := rfl
@[simp] theorem serializeDigest_X (s : State) : (serializeDigest s).X = s.X := rfl
@[simp] theorem serializeDigest_work (s : State) : (serializeDigest s).work = s.work := rfl
@[simp] theorem serializeDigest_sc (s : State) : (serializeDigest s).sc = s.sc := rfl
@[simp] theorem serializeDigest_phase (s : State) : (serializeDigest s).phase = s.phase := rfl
@[simp] theorem serializeDigest_fault (s : State) : (serializeDigest s).fault = s.fault := rfl
@[simp] theorem serializeDigest_cause (s : State) : (serializeDigest s).cause = s.cause := rfl
@[simp] theorem serializeDigest_rsp (s : State) : (serializeDigest s).rsp = s.rsp := rfl
@[simp] theorem serializeDigest_rx (s : State) : (serializeDigest s).rx = s.rx := rfl
@[simp] theorem serializeDigest_srcSize (s : State) : (serializeDigest s).srcSize = s.srcSize := rfl
@[simp] theorem serializeDigest_srcMem (s : State) : (serializeDigest s).srcMem = s.srcMem := rfl
@[simp] theorem serializeDigest_inbox (s : State) : (serializeDigest s).inbox = s.inbox := rfl
@[simp] theorem serializeDigest_compressing (s : State) : (serializeDigest s).compressing = s.compressing := rfl
@[simp] theorem serializeDigest_freeCount (s : State) : (serializeDigest s).freeCount = s.freeCount := rfl

/-! Direct windows change S, X, SC, the sequencer and the working registers alone. -/

@[simp] theorem directWindows_countLo (B : Nat → Byte) (k p : Nat) (s : State) :
    (directWindows B k p s).countLo = s.countLo := by
  induction k generalizing p s with
  | zero => rfl
  | succ k ih => simp [directWindows, ih]

@[simp] theorem directWindows_countHi (B : Nat → Byte) (k p : Nat) (s : State) :
    (directWindows B k p s).countHi = s.countHi := by
  induction k generalizing p s with
  | zero => rfl
  | succ k ih => simp [directWindows, ih]

@[simp] theorem directWindows_buf (B : Nat → Byte) (k p : Nat) (s : State) :
    (directWindows B k p s).buf = s.buf := by
  induction k generalizing p s with
  | zero => rfl
  | succ k ih => simp [directWindows, ih]

@[simp] theorem directWindows_pendingLen (B : Nat → Byte) (k p : Nat) (s : State) :
    (directWindows B k p s).pendingLen = s.pendingLen := by
  induction k generalizing p s with
  | zero => rfl
  | succ k ih => simp [directWindows, ih]

@[simp] theorem directWindows_digest (B : Nat → Byte) (k p : Nat) (s : State) :
    (directWindows B k p s).digest = s.digest := by
  induction k generalizing p s with
  | zero => rfl
  | succ k ih => simp [directWindows, ih]

@[simp] theorem directWindows_phase (B : Nat → Byte) (k p : Nat) (s : State) :
    (directWindows B k p s).phase = s.phase := by
  induction k generalizing p s with
  | zero => rfl
  | succ k ih => simp [directWindows, ih]

@[simp] theorem directWindows_fault (B : Nat → Byte) (k p : Nat) (s : State) :
    (directWindows B k p s).fault = s.fault := by
  induction k generalizing p s with
  | zero => rfl
  | succ k ih => simp [directWindows, ih]

@[simp] theorem directWindows_cause (B : Nat → Byte) (k p : Nat) (s : State) :
    (directWindows B k p s).cause = s.cause := by
  induction k generalizing p s with
  | zero => rfl
  | succ k ih => simp [directWindows, ih]

@[simp] theorem directWindows_rsp (B : Nat → Byte) (k p : Nat) (s : State) :
    (directWindows B k p s).rsp = s.rsp := by
  induction k generalizing p s with
  | zero => rfl
  | succ k ih => simp [directWindows, ih]

@[simp] theorem directWindows_rx (B : Nat → Byte) (k p : Nat) (s : State) :
    (directWindows B k p s).rx = s.rx := by
  induction k generalizing p s with
  | zero => rfl
  | succ k ih => simp [directWindows, ih]

@[simp] theorem directWindows_srcSize (B : Nat → Byte) (k p : Nat) (s : State) :
    (directWindows B k p s).srcSize = s.srcSize := by
  induction k generalizing p s with
  | zero => rfl
  | succ k ih => simp [directWindows, ih]

@[simp] theorem directWindows_srcMem (B : Nat → Byte) (k p : Nat) (s : State) :
    (directWindows B k p s).srcMem = s.srcMem := by
  induction k generalizing p s with
  | zero => rfl
  | succ k ih => simp [directWindows, ih]

@[simp] theorem directWindows_inbox (B : Nat → Byte) (k p : Nat) (s : State) :
    (directWindows B k p s).inbox = s.inbox := by
  induction k generalizing p s with
  | zero => rfl
  | succ k ih => simp [directWindows, ih]

/-! UPDATE_CORE: the frame, and the count. -/

@[simp] theorem updateCore_digest (B : Nat → Byte) (o n : Nat) (s : State) :
    (updateCore B o n s).digest = s.digest := by
  unfold updateCore
  split <;> simp [blockPath]

@[simp] theorem updateCore_phase (B : Nat → Byte) (o n : Nat) (s : State) :
    (updateCore B o n s).phase = s.phase := by
  unfold updateCore
  split <;> simp [blockPath]

@[simp] theorem updateCore_fault (B : Nat → Byte) (o n : Nat) (s : State) :
    (updateCore B o n s).fault = s.fault := by
  unfold updateCore
  split <;> simp [blockPath]

@[simp] theorem updateCore_cause (B : Nat → Byte) (o n : Nat) (s : State) :
    (updateCore B o n s).cause = s.cause := by
  unfold updateCore
  split <;> simp [blockPath]

@[simp] theorem updateCore_rsp (B : Nat → Byte) (o n : Nat) (s : State) :
    (updateCore B o n s).rsp = s.rsp := by
  unfold updateCore
  split <;> simp [blockPath]

@[simp] theorem updateCore_rx (B : Nat → Byte) (o n : Nat) (s : State) :
    (updateCore B o n s).rx = s.rx := by
  unfold updateCore
  split <;> simp [blockPath]

@[simp] theorem updateCore_srcSize (B : Nat → Byte) (o n : Nat) (s : State) :
    (updateCore B o n s).srcSize = s.srcSize := by
  unfold updateCore
  split <;> simp [blockPath]

@[simp] theorem updateCore_srcMem (B : Nat → Byte) (o n : Nat) (s : State) :
    (updateCore B o n s).srcMem = s.srcMem := by
  unfold updateCore
  split <;> simp [blockPath]

@[simp] theorem updateCore_inbox (B : Nat → Byte) (o n : Nat) (s : State) :
    (updateCore B o n s).inbox = s.inbox := by
  unfold updateCore
  split <;> simp [blockPath]

@[simp] theorem updateCore_countLo (B : Nat → Byte) (o n : Nat) (s : State) :
    (updateCore B o n s).countLo = (addBitCount n s).countLo := by
  unfold updateCore
  split <;> simp [blockPath]

@[simp] theorem updateCore_countHi (B : Nat → Byte) (o n : Nat) (s : State) :
    (updateCore B o n s).countHi = (addBitCount n s).countHi := by
  unfold updateCore
  split <;> simp [blockPath]

@[simp] theorem feedPadding_digest (s : State) : (feedPadding s).digest = s.digest := by simp [feedPadding]
@[simp] theorem feedLengthField_digest (l : List Byte) (s : State) : (feedLengthField l s).digest = s.digest := by
  simp [feedLengthField]

@[simp] theorem feedPadding_phase (s : State) : (feedPadding s).phase = s.phase := by simp [feedPadding]
@[simp] theorem feedLengthField_phase (l : List Byte) (s : State) : (feedLengthField l s).phase = s.phase := by
  simp [feedLengthField]

@[simp] theorem feedPadding_fault (s : State) : (feedPadding s).fault = s.fault := by simp [feedPadding]
@[simp] theorem feedLengthField_fault (l : List Byte) (s : State) : (feedLengthField l s).fault = s.fault := by
  simp [feedLengthField]

@[simp] theorem feedPadding_cause (s : State) : (feedPadding s).cause = s.cause := by simp [feedPadding]
@[simp] theorem feedLengthField_cause (l : List Byte) (s : State) : (feedLengthField l s).cause = s.cause := by
  simp [feedLengthField]

@[simp] theorem feedPadding_rsp (s : State) : (feedPadding s).rsp = s.rsp := by simp [feedPadding]
@[simp] theorem feedLengthField_rsp (l : List Byte) (s : State) : (feedLengthField l s).rsp = s.rsp := by
  simp [feedLengthField]

@[simp] theorem feedPadding_rx (s : State) : (feedPadding s).rx = s.rx := by simp [feedPadding]
@[simp] theorem feedLengthField_rx (l : List Byte) (s : State) : (feedLengthField l s).rx = s.rx := by
  simp [feedLengthField]

@[simp] theorem feedPadding_srcSize (s : State) : (feedPadding s).srcSize = s.srcSize := by simp [feedPadding]
@[simp] theorem feedLengthField_srcSize (l : List Byte) (s : State) : (feedLengthField l s).srcSize = s.srcSize := by
  simp [feedLengthField]

@[simp] theorem feedPadding_srcMem (s : State) : (feedPadding s).srcMem = s.srcMem := by simp [feedPadding]
@[simp] theorem feedLengthField_srcMem (l : List Byte) (s : State) : (feedLengthField l s).srcMem = s.srcMem := by
  simp [feedLengthField]

@[simp] theorem feedPadding_inbox (s : State) : (feedPadding s).inbox = s.inbox := by simp [feedPadding]
@[simp] theorem feedLengthField_inbox (l : List Byte) (s : State) : (feedLengthField l s).inbox = s.inbox := by
  simp [feedLengthField]

end Sys2Proof.Machine
end

