-- ==== Sys2Proof/Laws/Compression.lean ====
section
/-! SUPPORT. COMPRESS and runs of it: which bytes they depend on, how a run splits, and what direct windows leave in the
chaining state. -/

namespace Sys2Proof.Machine

/-- R174: COMPRESS depends on the 64 bytes alone. -/
theorem compressWords_congr {B B' : Nat → Byte} {p p' : Nat} (S : Vector Word 4)
    (h : ∀ j, j < 64 → B (p + j) = B' (p' + j)) : compressWords S B p = compressWords S B' p' := by
  unfold compressWords
  rw [decodeWords_congr (n := 16) h]

@[simp] theorem compressBlocks_zero (B : Nat → Byte) (p : Nat) (S : Vector Word 4) : compressBlocks B 0 p S = S := rfl

/-- A run of k + 1 blocks compresses the first and runs on from the next. -/
theorem compressBlocks_succ (B : Nat → Byte) (k p : Nat) (S : Vector Word 4) :
    compressBlocks B (k + 1) p S = compressBlocks B k (p + 64) (compressWords S B p) := by
  simp only [compressBlocks, List.range_succ_eq_map, List.foldl_cons, List.foldl_map, Nat.mul_zero, Nat.add_zero]
  congr 1
  funext S i
  rw [show p + 64 * i.succ = p + 64 + 64 * i by omega]

/-- A run depends on the bytes it covers alone. -/
theorem compressBlocks_congr {B B' : Nat → Byte} (k : Nat) {p p' : Nat} (S : Vector Word 4)
    (h : ∀ j, j < 64 * k → B (p + j) = B' (p' + j)) : compressBlocks B k p S = compressBlocks B' k p' S := by
  induction k generalizing p p' S with
  | zero => simp
  | succ k ih =>
    rw [compressBlocks_succ, compressBlocks_succ, compressWords_congr (B' := B') (p' := p') S fun j hj => h j (by omega)]
    refine ih _ fun j hj => ?_
    simpa [Nat.add_assoc] using h (64 + j) (by omega)

/-- A run of k + m blocks is a run of k and then a run of m. -/
theorem compressBlocks_add (B : Nat → Byte) (k m p : Nat) (S : Vector Word 4) :
    compressBlocks B (k + m) p S = compressBlocks B m (p + 64 * k) (compressBlocks B k p S) := by
  induction k generalizing p S with
  | zero => simp
  | succ k ih =>
    rw [show k + 1 + m = (k + m) + 1 by omega, compressBlocks_succ, ih, compressBlocks_succ]
    congr 1
    omega

/-- Direct windows are a run over the source. -/
theorem directWindows_S (B : Nat → Byte) (k p : Nat) (s : State) :
    (directWindows B k p s).S = compressBlocks B k p s.S := by
  induction k generalizing p s with
  | zero => rfl
  | succ k ih => rw [directWindows, ih, compressBlocks_succ, compress_S]

/-- X after direct windows: the words of the last, if there is one. -/
theorem directWindows_X (B : Nat → Byte) (k p : Nat) (s : State) :
    (directWindows B k p s).X = if k = 0 then s.X else decodeWords B (p + 64 * (k - 1)) 16 := by
  induction k generalizing p s with
  | zero => rfl
  | succ k ih =>
    rw [directWindows, ih, compress_X, if_neg (Nat.succ_ne_zero k)]
    split
    · next h => subst h; rfl
    · rw [show p + 64 + 64 * (k - 1) = p + 64 * (k + 1 - 1) by omega]

theorem directWindows_sc (B : Nat → Byte) (k p : Nat) (s : State) :
    (directWindows B k p s).sc = if k = 0 then s.sc else 0#6 := by
  induction k generalizing p s with
  | zero => rfl
  | succ k ih => rw [directWindows, ih, compress_sc, if_neg (Nat.succ_ne_zero k)]; split <;> rfl

theorem directWindows_compressing (B : Nat → Byte) (k p : Nat) (s : State) :
    (directWindows B k p s).compressing = if k = 0 then s.compressing else false := by
  induction k generalizing p s with
  | zero => rfl
  | succ k ih => rw [directWindows, ih, compress_compressing, if_neg (Nat.succ_ne_zero k)]; split <;> rfl

end Sys2Proof.Machine
end

