-- ==== Sys2Proof/Laws/Stream.lean ====
section
/-! SUPPORT. UPDATE_CORE: what it leaves in each piece of state, said once for any byte source (UPDATE feeds it SRC,
FINALIZE the padding and the length field). With M the pending bytes followed by the bytes fed, every full block of M is
compressed and the rest of M stays pending. -/

namespace Sys2Proof.Machine

@[simp] theorem sourceBytes_length (B : Nat → Byte) (o n : Nat) : (sourceBytes B o n).length = n := by
  simp [sourceBytes]

theorem sourceBytes_getElem (B : Nat → Byte) (o n j : Nat) (h : j < (sourceBytes B o n).length) :
    (sourceBytes B o n)[j] = B (o + j) := by
  simp [sourceBytes]

@[simp] theorem pending_length (s : State) : s.pending.length = s.pendingLen.val := by
  have := s.pendingLen.isLt
  simp [State.pending]

theorem pending_getElem (s : State) (j : Nat) (h : j < s.pending.length) :
    s.pending[j] = s.buf[j]'(by have := s.pendingLen.isLt; simp at h; omega) := by
  simp [State.pending]

/-- The bytes a block is made of: the pending bytes, then the bytes fed. -/
theorem listByte_pending_append (s : State) (B : Nat → Byte) (o n j : Nat) (h : j < s.pendingLen.val + n) :
    listByte (s.pending ++ sourceBytes B o n) j =
      if hj : j < s.pendingLen.val then s.buf[j]'(by have := s.pendingLen.isLt; omega)
      else B (o + (j - s.pendingLen.val)) := by
  unfold listByte
  rw [List.getD_eq_getElem (hn := by simpa using h)]
  split
  · next hj => rw [List.getElem_append_left (by simpa using hj), pending_getElem]
  · next hj =>
    rw [List.getElem_append_right (by simpa using hj), sourceBytes_getElem]
    simp

@[simp] theorem copyBytes_getElem (buf : Vector Byte 64) (start : Nat) (B : Nat → Byte) (o m k : Nat) (h : k < 64) :
    (copyBytes buf start B o m)[k] = if start ≤ k ∧ k < start + m then B (o + (k - start)) else buf[k] := by
  simp [copyBytes]

theorem bufByte_eq (s : State) (j : Nat) (h : j < 64) : s.bufByte j = s.buf[j] := by
  simp [State.bufByte, listByte, h]

/-- BUF when the first block is compressed: the pending bytes and the head of the window. -/
theorem bufByte_filled (s : State) (B : Nat → Byte) (o n j : Nat) (hn : 64 ≤ s.pendingLen.val + n) (hj : j < 64) :
    (copyIntoBuf s.pendingLen.val B o (64 - s.pendingLen.val) s).bufByte j =
      listByte (s.pending ++ sourceBytes B o n) j := by
  have := s.pendingLen.isLt
  rw [bufByte_eq _ _ hj, listByte_pending_append _ _ _ _ _ (by omega), copyIntoBuf_buf, copyBytes_getElem _ _ _ _ _ _ hj]
  by_cases h : j < s.pendingLen.val
  · rw [if_neg (by omega), dif_pos h]
  · rw [if_pos (by omega), dif_neg h]

@[simp] theorem pending_addBitCount (n : Nat) (s : State) : (addBitCount n s).pending = s.pending := rfl

/-- How many full blocks there are: the one in BUF and the direct windows. -/
theorem directCount_succ (index n : Nat) (hi : index < 64) (h : 64 ≤ index + n) :
    directCount index n + 1 = (index + n) / 64 := by
  unfold directCount; omega

theorem blockBytes_eq (index n : Nat) (hi : index < 64) (h : 64 ≤ index + n) :
    blockBytes index n = 64 * ((index + n) / 64) - index := by
  have := directCount_succ index n hi h
  unfold blockBytes; omega

/-- R21: bitCount as a number. -/
theorem bitCount_toNat (s : State) : s.bitCount.toNat = s.countHi.toNat * 2 ^ 32 + s.countLo.toNat := by
  rw [State.bitCount, BitVec.toNat_append, Nat.shiftLeft_eq, Nat.mul_comm, Nat.two_pow_add_eq_or_of_lt s.countLo.isLt]

@[simp] theorem countLowAfter_toNat (lo : Word) (n : Nat) :
    (countLowAfter lo n).toNat = (lo.toNat + (8 * n) % 2 ^ 32) % 2 ^ 32 := by
  simp [countLowAfter, countLowSum]

@[simp] theorem countHighAfter_toNat (lo hi : Word) (n : Nat) : (countHighAfter lo hi n).toNat =
    (hi.toNat + n / 2 ^ 29 + (lo.toNat + (8 * n) % 2 ^ 32) / 2 ^ 32) % 2 ^ 32 := by
  simp [countHighAfter, countLowSum]

/-- R193: the two halves together grow by 8·n modulo 2^64. -/
theorem bitCount_addBitCount (n : Nat) (s : State) :
    (addBitCount n s).bitCount.toNat = (s.bitCount.toNat + 8 * n) % 2 ^ 64 := by
  have h1 := s.countLo.isLt
  have h2 := s.countHi.isLt
  rw [bitCount_toNat, bitCount_toNat, addBitCount_countLo, addBitCount_countHi, countLowAfter_toNat,
    countHighAfter_toNat]
  omega

theorem updateCore_bitCount (B : Nat → Byte) (o n : Nat) (s : State) :
    (updateCore B o n s).bitCount = s.bitCount + BitVec.ofNat 64 (8 * n) := by
  apply BitVec.eq_of_toNat_eq
  rw [show (updateCore B o n s).bitCount = (addBitCount n s).bitCount by simp [State.bitCount], bitCount_addBitCount]
  simp

/-- R212: r as a number. -/
theorem bytePosition_eq (s : State) : s.bytePosition = s.countLo.toNat % 512 / 8 := by
  simp only [State.bytePosition, BitVec.extractLsb'_toNat, Nat.shiftRight_eq_div_pow]
  omega

theorem updateCore_block {B : Nat → Byte} {o n : Nat} {s : State} (h : 64 ≤ s.pendingLen.val + n) :
    updateCore B o n s = blockPath s.pendingLen.val B o n (addBitCount n s) := if_pos h

theorem updateCore_append {B : Nat → Byte} {o n : Nat} {s : State} (h : s.pendingLen.val + n < 64) :
    updateCore B o n s = storeTail s.pendingLen.val B o n (addBitCount n s) := if_neg (by omega)

/-- R197: the new pendingLen. -/
@[simp] theorem updateCore_pendingLen (B : Nat → Byte) (o n : Nat) (s : State) :
    (updateCore B o n s).pendingLen.val = (s.pendingLen.val + n) % 64 := by
  have hi := s.pendingLen.isLt
  unfold updateCore
  split
  · next h =>
    have := blockBytes_eq s.pendingLen.val n hi h
    simp only [blockPath, storeTail_pendingLen, Fin.ofNat]
    omega
  · simp [Fin.ofNat]

/-- R25 is kept by UPDATE_CORE. -/
theorem updateCore_lengthOk (B : Nat → Byte) (o n : Nat) (s : State) (h : s.lengthOk) :
    (updateCore B o n s).lengthOk := by
  unfold State.lengthOk at *
  rw [updateCore_pendingLen, h, bytePosition_eq, bytePosition_eq, updateCore_countLo, addBitCount_countLo,
    countLowAfter_toNat]
  omega

/-- R194, R195, R198: every full block of the pending bytes and the bytes fed is compressed, in order. -/
theorem updateCore_S (B : Nat → Byte) (o n : Nat) (s : State) :
    (updateCore B o n s).S = absorb s.S (s.pending ++ sourceBytes B o n) := by
  have hi := s.pendingLen.isLt
  unfold updateCore absorb
  simp only [List.length_append, pending_length, sourceBytes_length]
  split
  · next h =>
    have hc := directCount_succ s.pendingLen.val n hi h
    simp only [blockPath, storeTail_S, directWindows_S, fillAndCompress_S, addBitCount_S]
    rw [← hc, compressBlocks_succ]
    have hfirst : compressWords s.S (copyIntoBuf s.pendingLen.val B o (64 - s.pendingLen.val) (addBitCount n s)).bufByte 0 =
        compressWords s.S (listByte (s.pending ++ sourceBytes B o n)) 0 :=
      compressWords_congr _ fun j hj => by
        simpa using bufByte_filled (addBitCount n s) B o n j (by simpa using h) hj
    rw [hfirst]
    refine compressBlocks_congr _ _ fun j hj => ?_
    rw [listByte_pending_append _ _ _ _ _ (by omega), dif_neg (by omega)]
    congr 1; omega
  · next h => rw [Nat.div_eq_of_lt (by omega)]; simp

/-- R194, R196: every byte of BUF. -/
theorem updateCore_buf (B : Nat → Byte) (o n : Nat) (s : State) (k : Nat) (hk : k < 64) :
    (updateCore B o n s).buf[k] =
      if s.pendingLen.val + n < 64 then
        if s.pendingLen.val ≤ k ∧ k < s.pendingLen.val + n then B (o + (k - s.pendingLen.val)) else s.buf[k]
      else if k < (s.pendingLen.val + n) % 64 then B (o + (n - (s.pendingLen.val + n) % 64) + k)
      else if k < s.pendingLen.val then s.buf[k]
      else B (o + (k - s.pendingLen.val)) := by
  have hi := s.pendingLen.isLt
  by_cases h : s.pendingLen.val + n < 64
  · simp only [if_pos h, updateCore_append h, storeTail_buf, addBitCount_buf, copyBytes_getElem]
  · have hb := blockBytes_eq s.pendingLen.val n hi (by omega)
    simp only [if_neg h, updateCore_block (Nat.le_of_not_lt h), blockPath, storeTail_buf, directWindows_buf,
      fillAndCompress_buf, addBitCount_buf, copyBytes_getElem]
    by_cases h1 : k < (s.pendingLen.val + n) % 64
    · rw [if_pos (by omega), if_pos h1]; congr 1; omega
    · rw [if_neg (by omega), if_neg h1]
      by_cases h2 : k < s.pendingLen.val
      · rw [if_neg (by omega), if_pos h2]
      · rw [if_pos (by omega), if_neg h2]

/-- R196, R197: the bytes that fill no block stay pending. -/
theorem updateCore_pending (B : Nat → Byte) (o n : Nat) (s : State) :
    (updateCore B o n s).pending = leftover (s.pending ++ sourceBytes B o n) := by
  have hi := s.pendingLen.isLt
  apply List.ext_getElem
  · simp [leftover]; omega
  · intro j h1 h2
    have hj : j < (s.pendingLen.val + n) % 64 := by simpa using h1
    rw [pending_getElem, updateCore_buf _ _ _ _ _ (by omega)]
    simp only [leftover, List.getElem_drop, List.length_append, pending_length, sourceBytes_length]
    have hl := listByte_pending_append s B o n (64 * ((s.pendingLen.val + n) / 64) + j) (by omega)
    unfold listByte at hl
    rw [List.getD_eq_getElem (hn := by simp; omega)] at hl
    rw [hl]
    by_cases h : s.pendingLen.val + n < 64
    · rw [if_pos h]
      simp only [Nat.div_eq_of_lt h]
      by_cases h3 : j < s.pendingLen.val
      · rw [if_neg (by omega), dif_pos (by omega)]; simp
      · rw [if_pos (by omega), dif_neg (by omega)]; simp
    · rw [if_neg h, if_pos hj, dif_neg (by omega)]
      congr 1; omega

/-- R27: X holds the last block compressed, if one was. -/
theorem updateCore_X (B : Nat → Byte) (o n : Nat) (s : State) :
    (updateCore B o n s).X =
      if s.pendingLen.val + n < 64 then s.X
      else decodeWords (listByte (s.pending ++ sourceBytes B o n)) (64 * ((s.pendingLen.val + n) / 64 - 1)) 16 := by
  have hi := s.pendingLen.isLt
  unfold updateCore
  split
  · next h =>
    have hc := directCount_succ s.pendingLen.val n hi h
    rw [if_neg (by omega), ← hc]
    simp only [blockPath, storeTail_X, directWindows_X, fillAndCompress_X]
    split
    · next h0 =>
      rw [h0]
      exact decodeWords_congr fun j hj => by
        simpa using bufByte_filled (addBitCount n s) B o n j (by simpa using h) (by omega)
    · next h0 =>
      refine decodeWords_congr fun j hj => ?_
      rw [listByte_pending_append _ _ _ _ _ (by omega), dif_neg (by omega)]
      congr 1; omega
  · next h => rw [if_pos (by omega)]; simp

theorem updateCore_sc (B : Nat → Byte) (o n : Nat) (s : State) :
    (updateCore B o n s).sc = if s.pendingLen.val + n < 64 then s.sc else 0#6 := by
  unfold updateCore
  split
  · rw [if_neg (by omega)]; simp [blockPath, directWindows_sc]
  · rw [if_pos (by omega)]; simp

theorem updateCore_compressing (B : Nat → Byte) (o n : Nat) (s : State) :
    (updateCore B o n s).compressing = if s.pendingLen.val + n < 64 then s.compressing else false := by
  unfold updateCore
  split
  · rw [if_neg (by omega)]; simp [blockPath, directWindows_compressing]
  · rw [if_pos (by omega)]; simp

end Sys2Proof.Machine
end

