-- ==== Sys2Proof/Laws/Message.lean ====
section
/-! SUPPORT. Messages: how absorbing a byte string splits, which bytes UPDATE_CORE depends on, and what the two feeds and
the digest of FINALIZE come to. -/

namespace Sys2Proof.Machine

theorem sourceBytes_listByte (l : List Byte) : sourceBytes (listByte l) 0 l.length = l := by
  apply List.ext_getElem
  · simp
  · intro n h1 h2
    simp [sourceBytes_getElem, listByte, h2]

/-- Absorbing M and then what it left pending followed by N is absorbing M followed by N. -/
theorem absorb_leftover (S : Vector Word 4) (M N : List Byte) :
    absorb (absorb S M) (leftover M ++ N) = absorb S (M ++ N) := by
  have hlen : (M ++ N).length / 64 = M.length / 64 + (leftover M ++ N).length / 64 := by
    simp [leftover]; omega
  have hfirst : compressBlocks (listByte (M ++ N)) (M.length / 64) 0 S =
      compressBlocks (listByte M) (M.length / 64) 0 S := by
    refine compressBlocks_congr _ _ fun j hj => ?_
    simp only [listByte, Nat.zero_add, List.getD_eq_getElem?_getD]
    rw [List.getElem?_append_left (by omega)]
  unfold absorb
  rw [hlen, compressBlocks_add, hfirst]
  refine compressBlocks_congr _ _ fun j hj => ?_
  simp only [listByte, Nat.zero_add, List.getD_eq_getElem?_getD, leftover]
  congr 1
  by_cases h : j < (M.drop (64 * (M.length / 64))).length
  · rw [List.getElem?_append_left h, List.getElem?_drop, List.getElem?_append_left (by simp at h; omega)]
  · rw [List.getElem?_append_right (by omega), List.getElem?_append_right (by simp at h; omega)]
    congr 1
    simp at h ⊢; omega

/-- What is left of the leftover followed by N is what is left of the whole. -/
theorem leftover_append (M N : List Byte) : leftover (leftover M ++ N) = leftover (M ++ N) := by
  unfold leftover
  apply List.ext_getElem
  · simp; omega
  · intro n h1 h2
    simp only [List.length_drop, List.length_append] at h1 h2
    simp only [List.getElem_drop]
    by_cases h : 64 * (M.length / 64) + (64 * ((M.drop (64 * (M.length / 64)) ++ N).length / 64) + n) < M.length
    · rw [List.getElem_append_left (by simp at h ⊢; omega), List.getElem_append_left (by simp at h ⊢; omega)]
      simp only [List.getElem_drop]; congr 1; simp; omega
    · rw [List.getElem_append_right (by simp at h ⊢; omega), List.getElem_append_right (by simp at h ⊢; omega)]
      congr 1; simp at h ⊢; omega

/-- Consecutive windows of SRC are one window. -/
theorem window_append (s : State) (off a b : Nat) : s.window off a ++ s.window (off + a) b = s.window off (a + b) := by
  apply List.ext_getElem
  · simp [State.window]
  · intro n h1 h2
    simp only [State.window, sourceBytes_length] at h2
    by_cases h : n < a
    · rw [List.getElem_append_left (by simpa [State.window] using h)]; simp [State.window, sourceBytes]
    · rw [List.getElem_append_right (by simp [State.window]; omega)]; simp [State.window, sourceBytes]; congr 1; omega

theorem compress_congr {B B' : Nat → Byte} {p : Nat} (s : State) (h : ∀ j, j < 64 → B (p + j) = B' (p + j)) :
    compress B p s = compress B' p s := by
  unfold compress startCompression
  rw [decodeWords_congr (n := 16) h]

theorem directWindows_congr {B B' : Nat → Byte} (k p : Nat) (s : State)
    (h : ∀ j, p ≤ j → j < p + 64 * k → B j = B' j) : directWindows B k p s = directWindows B' k p s := by
  induction k generalizing p s with
  | zero => rfl
  | succ k ih =>
    rw [directWindows, directWindows, compress_congr s fun j hj => h _ (by omega) (by omega)]
    exact ih _ _ fun j h1 h2 => h j (by omega) (by omega)

theorem copyBytes_congr {B B' : Nat → Byte} (buf : Vector Byte 64) (start o m : Nat)
    (h : ∀ j, o ≤ j → j < o + m → B j = B' j) : copyBytes buf start B o m = copyBytes buf start B' o m := by
  ext i hi
  rw [copyBytes_getElem, copyBytes_getElem]
  split
  · rw [h] <;> omega
  · rfl

/-- R57: UPDATE_CORE depends on the n bytes it is fed alone. -/
theorem updateCore_congr {B B' : Nat → Byte} (o n : Nat) (s : State) (h : ∀ j, o ≤ j → j < o + n → B j = B' j) :
    updateCore B o n s = updateCore B' o n s := by
  have hi := s.pendingLen.isLt
  unfold updateCore
  split
  · next hl =>
    have hb := blockBytes_eq s.pendingLen.val n hi hl
    have hd := directCount_succ s.pendingLen.val n hi hl
    unfold blockPath storeTail copyIntoBuf fillAndCompress copyIntoBuf
    rw [directWindows_congr (B := B) (B' := B') _ _ _ fun j h1 h2 => h j (by omega) (by omega),
      copyBytes_congr (B := B) (B' := B') _ _ _ _ fun j h1 h2 => h j (by omega) (by omega),
      copyBytes_congr (B := B) (B' := B') _ _ _ _ fun j h1 h2 => h j (by omega) (by omega)]
  · unfold storeTail copyIntoBuf
    rw [copyBytes_congr (B := B) (B' := B') _ _ _ _ fun j h1 h2 => h j (by omega) (by omega)]

theorem directWindows_withSrcMem (B : Nat → Byte) (m : Memory) (k p : Nat) (s : State) :
    directWindows B k p { s with srcMem := m } = { directWindows B k p s with srcMem := m } := by
  induction k generalizing p s with
  | zero => rfl
  | succ k ih => rw [directWindows, directWindows, ← ih]; rfl

/-- UPDATE_CORE neither reads nor writes the cells of SRC: the byte source is its argument. -/
theorem updateCore_withSrcMem (B : Nat → Byte) (o n : Nat) (m : Memory) (s : State) :
    updateCore B o n { s with srcMem := m } = { updateCore B o n s with srcMem := m } := by
  unfold updateCore
  split
  · exact congrArg (storeTail 0 B (o + blockBytes s.pendingLen.val n) (n - blockBytes s.pendingLen.val n))
      (directWindows_withSrcMem B m (directCount s.pendingLen.val n) (o + (64 - s.pendingLen.val))
        (fillAndCompress s.pendingLen.val B o (addBitCount n s)))
  · rfl

theorem padLength_pos {r : Nat} (h : r < 64) : 0 < padLength r := by
  unfold padLength; split <;> omega

theorem bytePosition_lt (s : State) : s.bytePosition < 64 := by
  rw [bytePosition_eq]; omega

@[simp] theorem lengthField_length (s : State) : s.lengthField.length = 8 := by simp [State.lengthField]

theorem padBytes_length {n : Nat} (h : 0 < n) : (padBytes n).length = n := by
  simp [padBytes]; omega

theorem padBytes_padLength_length (s : State) :
    (padBytes (padLength s.bytePosition)).length = padLength s.bytePosition :=
  padBytes_length (padLength_pos (bytePosition_lt s))

theorem sourceBytes_padBytes (s : State) :
    sourceBytes (listByte (padBytes (padLength s.bytePosition))) 0 (padLength s.bytePosition) =
      padBytes (padLength s.bytePosition) := by
  have h := sourceBytes_listByte (padBytes (padLength s.bytePosition))
  rwa [padBytes_padLength_length] at h

/-- R212: what the padding feed absorbs. -/
theorem feedPadding_S (s : State) :
    (feedPadding s).S = absorb s.S (s.pending ++ padBytes (padLength s.bytePosition)) := by
  rw [feedPadding, updateCore_S, sourceBytes_padBytes]

theorem feedPadding_pending (s : State) :
    (feedPadding s).pending = leftover (s.pending ++ padBytes (padLength s.bytePosition)) := by
  rw [feedPadding, updateCore_pending, sourceBytes_padBytes]

/-- R213: what the length-field feed absorbs. -/
theorem feedLengthField_S {l : List Byte} (hl : l.length = 8) (s : State) :
    (feedLengthField l s).S = absorb s.S (s.pending ++ l) := by
  rw [feedLengthField, updateCore_S, ← hl, sourceBytes_listByte]

/-- R215: the digest bytes as a list. -/
@[simp] theorem toList_stateBytes (s : State) : s.stateBytes.toList = encodeWords s.S.toList := by
  apply List.ext_getElem
  · simp
  · intro n h1 h2
    have : n < 16 := by simpa using h1
    simp [State.stateBytes, listByte]

/-- The state is determined in its bit count by the number it stands for. -/
theorem countLo_countHi_of_bitCount {s t : State} (h : s.bitCount = t.bitCount) :
    s.countLo = t.countLo ∧ s.countHi = t.countHi := by
  have h := congrArg BitVec.toNat h
  rw [bitCount_toNat, bitCount_toNat] at h
  have h1 := s.countLo.isLt
  have h2 := t.countLo.isLt
  constructor <;> apply BitVec.eq_of_toNat_eq <;> omega

/-- A context that is initial has been fed nothing. -/
theorem fed_nil_of_initial {s : State} (hS : s.S = initialState) (hlo : s.countLo = 0#32) (hhi : s.countHi = 0#32)
    (hlen : s.pendingLen = 0) : s.Fed [] := by
  refine ⟨hS, ?_, by rw [hlen]; rfl, ?_⟩
  · simp [State.bitCount, hlo, hhi]
  · simp [State.pending, hlen, leftover]

/-- Which message a context has been fed depends on S, bitCount, BUF and pendingLen alone. -/
theorem State.Fed.congr {s t : State} {M : List Byte} (h : s.Fed M) (hS : t.S = s.S) (hlo : t.countLo = s.countLo)
    (hhi : t.countHi = s.countHi) (hbuf : t.buf = s.buf) (hlen : t.pendingLen = s.pendingLen) : t.Fed M := by
  obtain ⟨h1, h2, h3, h4⟩ := h
  exact ⟨hS.trans h1, by rw [← h2]; simp [State.bitCount, hlo, hhi], by rw [hlen, h3],
    by rw [← h4]; simp [State.pending, hbuf, hlen]⟩

/-- R24: UPDATE_CORE appends the bytes it is fed to the message. -/
theorem updateCore_fed {s : State} {M : List Byte} (h : s.Fed M) (B : Nat → Byte) (o n : Nat) :
    (updateCore B o n s).Fed (M ++ sourceBytes B o n) := by
  obtain ⟨h1, h2, h3, h4⟩ := h
  refine ⟨?_, ?_, ?_, ?_⟩
  · rw [updateCore_S, h1, h4, absorb_leftover]
  · rw [updateCore_bitCount, h2]
    apply BitVec.eq_of_toNat_eq
    simp
    omega
  · rw [updateCore_pendingLen, h3]
    simp
  · rw [updateCore_pending, h4, leftover_append]

end Sys2Proof.Machine
end

