-- ==== Sys2Proof/Laws/Decode.lean ====
section
/-! SUPPORT. The decoder: what each header decodes to, which commands there are, and which values of SC select an
operation. -/

namespace Sys2Proof

@[simp] theorem decodeCommand_nil : decodeCommand [] = .incomplete := rfl

theorem headerRsvd_eq_zero (h : Word) : headerRsvd h = 0#24 ↔ h.toNat < 256 := by
  have := h.isLt
  rw [← BitVec.toNat_inj]
  simp only [headerRsvd, BitVec.extractLsb'_toNat, Nat.shiftRight_eq_div_pow, BitVec.toNat_ofNat]
  omega

theorem headerOpc_toNat (h : Word) : (headerOpc h).toNat = h.toNat % 256 := by
  simp [headerOpc]

/-- A header with RSVD = 0 is its opcode. -/
theorem header_of_fields (h : Word) (n : Nat) (hn : n < 256) (hr : headerRsvd h = 0#24)
    (ho : headerOpc h = BitVec.ofNat 8 n) : h = BitVec.ofNat 32 n := by
  rw [headerRsvd_eq_zero] at hr
  apply BitVec.eq_of_toNat_eq
  have h1 := headerOpc_toNat h
  rw [ho] at h1
  simp only [BitVec.toNat_ofNat] at h1 ⊢
  omega

/-- What the decoder can answer, by cases on the header. -/
theorem decodeCommand_cases (h : Word) (ws : List Word) :
    (h = 0x00000001#32 ∧ decodeCommand (h :: ws) = .command .init ws) ∨
    (h = 0x00000002#32 ∧ ∃ off len rest, ws = off :: len :: rest ∧
      decodeCommand (h :: ws) = .command (.update off.toNat len.toNat) rest) ∨
    (h = 0x00000002#32 ∧ ws.length < 2 ∧ decodeCommand (h :: ws) = .incomplete) ∨
    (h = 0x00000003#32 ∧ decodeCommand (h :: ws) = .command .finalize ws) ∨
    (h ≠ 0x00000001#32 ∧ h ≠ 0x00000002#32 ∧ h ≠ 0x00000003#32 ∧ ∃ why, decodeCommand (h :: ws) = .illegal why ws) := by
  by_cases hr : headerRsvd h = 0#24
  · by_cases h1 : headerOpc h = 0x01#8
    · have hh := header_of_fields h 1 (by omega) hr h1
      exact .inl ⟨hh, by simp [decodeCommand, hr, h1]⟩
    · by_cases h2 : headerOpc h = 0x02#8
      · have hh := header_of_fields h 2 (by omega) hr h2
        match ws with
        | [] => exact .inr (.inr (.inl ⟨hh, by simp, by simp [decodeCommand, hr, h2]⟩))
        | [_] => exact .inr (.inr (.inl ⟨hh, by simp, by simp [decodeCommand, hr, h2]⟩))
        | off :: len :: rest =>
          exact .inr (.inl ⟨hh, off, len, rest, rfl, by simp [decodeCommand, hr, h2]⟩)
      · by_cases h3 : headerOpc h = 0x03#8
        · have hh := header_of_fields h 3 (by omega) hr h3
          exact .inr (.inr (.inr (.inl ⟨hh, by simp [decodeCommand, hr, h3]⟩)))
        · refine .inr (.inr (.inr (.inr ⟨?_, ?_, ?_, .reservedOpcode (headerOpc h), by simp [decodeCommand, hr, h1, h2, h3]⟩)))
          · rintro rfl; exact h1 rfl
          · rintro rfl; exact h2 rfl
          · rintro rfl; exact h3 rfl
  · refine .inr (.inr (.inr (.inr ⟨?_, ?_, ?_, .reservedBits, by simp [decodeCommand, hr]⟩)))
    all_goals (rintro rfl; exact hr rfl)

/-- The commands the decoder knows. -/
theorem decodeCommand_command {ws rest : List Word} {i : Instr} (h : decodeCommand ws = .command i rest) :
    i = .init ∨ (∃ off len, i = .update off len) ∨ i = .finalize := by
  cases ws with
  | nil => cases h
  | cons w ws =>
    rcases decodeCommand_cases w ws with ⟨-, e⟩ | ⟨-, _, _, _, -, e⟩ | ⟨-, -, e⟩ | ⟨-, e⟩ | ⟨-, -, -, _, e⟩ <;>
      rw [e] at h <;> cases h
    · exact .inl rfl
    · exact .inr (.inl ⟨_, _, rfl⟩)
    · exact .inr (.inr rfl)

/-- What is incomplete: nothing, or the beginning of an UPDATE. -/
theorem decodeCommand_incomplete {ws : List Word} (h : decodeCommand ws = .incomplete) :
    ws = [] ∨ ws = [0x00000002#32] ∨ ∃ off, ws = [0x00000002#32, off] := by
  match ws with
  | [] => exact .inl rfl
  | w :: ws =>
    rcases decodeCommand_cases w ws with ⟨-, e⟩ | ⟨-, _, _, _, -, e⟩ | ⟨hw, hl, -⟩ | ⟨-, e⟩ | ⟨-, -, -, _, e⟩
    any_goals (rw [e] at h; cases h)
    subst hw
    match ws, hl with
    | [], _ => exact .inr (.inl rfl)
    | [off], _ => exact .inr (.inr ⟨off, rfl⟩)

end Sys2Proof
end

