-- ==== Sys2Proof/Laws/Fetch.lean ====
section
/-! SUPPORT. Reception of command words: what it comes to, and which words it consumes. -/

namespace Sys2Proof.Machine

@[simp] theorem receive_nil (rx : List Word) : receive rx [] = .waiting rx [] := rfl

@[simp] theorem receive_src (rx : List Word) (bytes : List Byte) (evs : List HostEvent) :
    receive rx (.src bytes :: evs) = .waiting rx (.src bytes :: evs) := rfl

@[simp] theorem receive_rst (rx : List Word) (evs : List HostEvent) :
    receive rx (.rst :: evs) = .waiting rx (.rst :: evs) := rfl

/-- Words that complete a command are consumed, and it is that command. -/
theorem receive_of_command {i : Instr} (ws : List Word) (rx : List Word) (evs : List HostEvent) (hne : ws ≠ [])
    (hrx : decodeCommand rx = .incomplete) (h : decodeCommand (rx ++ ws) = .command i []) :
    receive rx (ws.map .word ++ evs) = .command i evs := by
  induction ws generalizing rx with
  | nil => exact absurd rfl hne
  | cons w ws ih =>
    simp only [List.map_cons, List.cons_append, receive]
    by_cases hw : ws = []
    · subst hw; rw [h]; rfl
    · have happ : rx ++ w :: ws = (rx ++ [w]) ++ ws := by simp
      rw [happ] at h
      have hinc : decodeCommand (rx ++ [w]) = .incomplete := by
        rcases decodeCommand_incomplete hrx with rfl | rfl | ⟨off, rfl⟩
        · rcases decodeCommand_cases w ws with ⟨-, e⟩ | ⟨rfl, -⟩ | ⟨rfl, -⟩ | ⟨-, e⟩ | ⟨-, -, -, _, e⟩
          any_goals rfl
          all_goals (simp only [List.nil_append, List.singleton_append] at h; rw [e] at h)
          · injection h with _ h; exact absurd h hw
          · injection h with _ h; exact absurd h hw
          · cases h
        · rfl
        · obtain ⟨v, vs, rfl⟩ := List.exists_cons_of_ne_nil hw
          change Decoded.command _ (v :: vs) = _ at h
          injection h with _ h; cases h
      rw [hinc]
      exact ih _ hw hinc h

/-- Words that leave a command incomplete are kept. -/
theorem receive_of_incomplete (ws : List Word) (rx : List Word) (evs : List HostEvent)
    (hevs : ∀ w es, evs ≠ .word w :: es) (h : decodeCommand (rx ++ ws) = .incomplete) :
    receive rx (ws.map .word ++ evs) = .waiting (rx ++ ws) evs := by
  induction ws generalizing rx with
  | nil =>
    match evs with
    | [] => simp
    | .src _ :: _ => simp
    | .rst :: _ => simp
    | .word w :: es => exact absurd rfl (hevs w es)
  | cons w ws ih =>
    have happ : rx ++ w :: ws = (rx ++ [w]) ++ ws := by simp
    rw [happ] at h ⊢
    have hinc : decodeCommand (rx ++ [w]) = .incomplete := by
      rcases decodeCommand_incomplete h with e | e | ⟨off, e⟩
      · simp at e
      · rcases rx with _ | ⟨a, _ | ⟨b, rx⟩⟩
        · simp at e; rw [e.1]; rfl
        · simp at e
        · simp at e
      · rcases rx with _ | ⟨a, _ | ⟨b, rx⟩⟩
        · simp at e; rw [e.1]; rfl
        · simp at e; rw [e.1]; rfl
        · simp at e
    simp only [List.map_cons, List.cons_append, receive, hinc]
    exact ih _ h

/-- An illegal header at the front is consumed alone. -/
theorem receive_of_illegal {h : Word} {why : Reject} (evs : List HostEvent) (hd : decodeCommand [h] = .illegal why []) :
    receive [] (.word h :: evs) = .illegal evs := by
  simp [receive, hd]

/-- A received command is one of the three. -/
theorem receive_command {i : Instr} {inbox evs : List HostEvent} {rx : List Word} (h : receive rx inbox = .command i evs) :
    i = .init ∨ (∃ off len, i = .update off len) ∨ i = .finalize := by
  induction inbox generalizing rx with
  | nil => cases h
  | cons e inbox ih =>
    match e with
    | .src _ => cases h
    | .rst => cases h
    | .word w =>
      simp only [receive] at h
      split at h
      · next hd => cases h; exact decodeCommand_command hd
      · cases h
      · exact ih h

/-- What waits is incomplete. -/
theorem receive_waiting {inbox evs : List HostEvent} {rx rx' : List Word} (hrx : decodeCommand rx = .incomplete)
    (h : receive rx inbox = .waiting rx' evs) : decodeCommand rx' = .incomplete := by
  induction inbox generalizing rx with
  | nil => cases h; exact hrx
  | cons e inbox ih =>
    match e with
    | .src _ => cases h; exact hrx
    | .rst => cases h; exact hrx
    | .word w =>
      simp only [receive] at h
      split at h
      · cases h
      · cases h
      · next hd => exact ih hd h

end Sys2Proof.Machine
end

