-- ==== Sys2Proof/Laws/Step.lean ====
section
/-! SUPPORT. What a step can do, said once: the micro-operation SC selects, or one of the six things the inputs can lead to
between commands. -/

namespace Sys2Proof.Machine

/-- What each value of SC selects: below 48 a step that writes the working registers and SC alone, at 48 the feed-forward,
above it nothing. -/
theorem decodeMicro_exec {sc : BitVec 6} {i : Instr} (h : decodeMicro sc = some i) :
    (sc.toNat < 48 ∧ ∃ w : State → Working, ∀ s, exec i s = .next { s with work := w s, sc := BitVec.ofNat 6 (sc.toNat + 1) }) ∨
    (sc = 48#6 ∧ i = .feedforward) := by
  unfold decodeMicro at h
  split at h
  case h_49 h48 =>
    refine .inr ⟨BitVec.eq_of_toNat_eq h48, ?_⟩
    injection h with h
    exact h.symm
  case h_50 => cases h
  all_goals
    injection h with h
    subst h
    rename_i hn
    rw [hn]
    exact .inl ⟨by omega, _, fun s => rfl⟩

/-- SC selects an operation exactly up to 48. -/
theorem decodeMicro_isSome (sc : BitVec 6) : (∃ i, decodeMicro sc = some i) ↔ sc.toNat ≤ 48 := by
  have key : ∀ n : Fin 64, (decodeMicro (BitVec.ofFin n)).isSome = decide (n.val ≤ 48) := by decide
  have h := key sc.toFin
  rw [← Option.isSome_iff_exists, show decodeMicro sc = decodeMicro (BitVec.ofFin sc.toFin) from rfl, h,
    decide_eq_true_eq]
  rfl

/-- The ways a step reaches a next state. -/
inductive StepCase (s t : State) : Prop
  | micro (i : Instr) (hc : s.compressing = true) (hi : decodeMicro s.sc = some i)
      (ht : exec i (clearResponse s) = .next t)
  | idle (hc : s.compressing = false) (hin : s.inbox = []) (ht : t = clearResponse s)
  | reset (evs : List HostEvent) (hc : s.compressing = false) (hin : s.inbox = .rst :: evs)
      (ht : t = hardwareReset { s with inbox := evs })
  | source (bytes : List Byte) (evs : List HostEvent) (hc : s.compressing = false) (hin : s.inbox = .src bytes :: evs)
      (hlen : bytes.length < 0x100000000) (ht : t = presentSource bytes (clearResponse { s with inbox := evs }))
  | command (i : Instr) (evs : List HostEvent) (hc : s.compressing = false) (hr : receive s.rx s.inbox = .command i evs)
      (ht : exec i (clearResponse { s with rx := [], inbox := evs }) = .next t)
  | illegal (evs : List HostEvent) (hc : s.compressing = false) (hr : receive s.rx s.inbox = .illegal evs)
      (ht : t = illegalCommand (clearResponse { s with rx := [], inbox := evs }))
  | waiting (rx : List Word) (evs : List HostEvent) (hc : s.compressing = false)
      (hin : ∃ w es, s.inbox = .word w :: es) (hr : receive s.rx s.inbox = .waiting rx evs)
      (ht : t = clearResponse { s with rx := rx, inbox := evs })

/-- Every step that answers a next state is one of these. -/
theorem step_cases {s t : State} (h : step s = .next t) : StepCase s t := by
  unfold step at h
  split at h
  · next i u hf =>
    unfold fetch at hf
    split at hf
    · next hc =>
      split at hf
      · next j hj => cases hf; exact .micro _ hc hj h
      · cases hf
    · next hc =>
      have hc : s.compressing = false := by simpa using hc
      split at hf
      · cases hf
      · cases hf
      · split at hf <;> cases hf
      · next w es hin =>
        split at hf
        · next hr => cases hf; exact .command _ _ hc (hin ▸ hr) h
        · cases hf
        · cases hf
  · next u hf =>
    cases h
    unfold fetch at hf
    split at hf
    · split at hf <;> cases hf
    · next hc =>
      have hc : s.compressing = false := by simpa using hc
      split at hf
      · next hin => cases hf; exact .idle hc hin rfl
      · next evs hin => cases hf; exact .reset evs hc hin rfl
      · next bytes evs hin =>
        split at hf
        · next hl => cases hf; exact .source bytes evs hc hin hl rfl
        · cases hf
      · next w es hin =>
        split at hf
        · cases hf
        · next evs hr => cases hf; exact .illegal evs hc (hin ▸ hr) rfl
        · next rx evs hr => cases hf; exact .waiting rx evs hc ⟨w, es, hin⟩ (hin ▸ hr) rfl
  · cases h
  · cases h

/-- A step between commands whose words complete a command runs it. -/
theorem step_of_command {s : State} {i : Instr} {evs : List HostEvent} (hc : s.compressing = false)
    (hr : receive s.rx s.inbox = .command i evs) :
    step s = exec i (clearResponse { s with rx := [], inbox := evs }) := by
  cases hin : s.inbox with
  | nil => rw [hin] at hr; cases hr
  | cons e es =>
    cases e with
    | src b => rw [hin] at hr; cases hr
    | rst => rw [hin] at hr; cases hr
    | word w => rw [hin] at hr; simp [step, fetch, hc, hin, hr]

/-- A step between commands that meets an illegal header. -/
theorem step_of_illegal {s : State} {evs : List HostEvent} (hc : s.compressing = false)
    (hr : receive s.rx s.inbox = .illegal evs) :
    step s = .next (illegalCommand (clearResponse { s with rx := [], inbox := evs })) := by
  cases hin : s.inbox with
  | nil => rw [hin] at hr; cases hr
  | cons e es =>
    cases e with
    | src b => rw [hin] at hr; cases hr
    | rst => rw [hin] at hr; cases hr
    | word w => rw [hin] at hr; simp [step, fetch, hc, hin, hr]

/-- A step of a running compression runs what SC selects. -/
theorem step_of_micro {s : State} {i : Instr} (hc : s.compressing = true) (hi : decodeMicro s.sc = some i) :
    step s = exec i (clearResponse s) := by
  simp [step, fetch, hc, hi]

/-- A run of one step more. -/
theorem run_next {k : Nat} {u t : State} (h : step u = .next t) : core.run (k + 1) u = core.run k t := by
  have h' : core.step u = .next t := h
  simp only [Host.Core.run, h']

theorem run_zero (u : State) : core.run 0 u = .next u := rfl

end Sys2Proof.Machine
end

