-- ==== Sys2Proof/Laws/Commands.lean ====
section
/-! SUPPORT. The three commands: what each answers, by whether FAULT is set and the window is in bounds. -/

namespace Sys2Proof.Machine

theorem exec_init_ok {s : State} (h : s.fault = false) :
    exec .init s = .next (respond .ok { clearDigest (contextReset s) with phase := .initialized }) := by
  simp [exec, execInit, h]

theorem exec_update_ok {s : State} {off len : Nat} (h : s.fault = false) (hb : off + len ≤ s.srcSize) :
    exec (.update off len) s = .next (respond .ok { updateCore s.srcByte off len s with phase := .updating }) := by
  simp [exec, execUpdate, h, State.outOfBounds, Nat.not_lt.2 hb]

theorem exec_update_bounds {s : State} {off len : Nat} (h : s.fault = false) (hb : s.srcSize < off + len) :
    exec (.update off len) s = .next (raiseFault .bounds s) := by
  simp [exec, execUpdate, h, State.outOfBounds, hb]

theorem exec_finalize_ok {s : State} (h : s.fault = false) : exec .finalize s = .next (respondDigest
    { contextReset (serializeDigest (feedLengthField s.lengthField (feedPadding s))) with phase := .initialized }) := by
  simp [exec, execFinalize, h]

/-- R235: a faulted machine refuses every command. -/
theorem exec_refused {s : State} (h : s.fault = true) {i : Instr}
    (hi : i = .init ∨ (∃ off len, i = .update off len) ∨ i = .finalize) : exec i s = .next (refuse s) := by
  rcases hi with rfl | ⟨_, _, rfl⟩ | rfl
  · simp [exec, execInit, h]
  · simp [exec, execUpdate, h]
  · simp [exec, execFinalize, h]

/-- What a command answers, by cases. -/
theorem exec_command_cases {s t : State} {i : Instr}
    (hi : i = .init ∨ (∃ off len, i = .update off len) ∨ i = .finalize) (h : exec i s = .next t) :
    (s.fault = true ∧ t = refuse s) ∨
    (s.fault = false ∧ i = .init ∧ t = respond .ok { clearDigest (contextReset s) with phase := .initialized }) ∨
    (s.fault = false ∧ ∃ off len, i = .update off len ∧
      (t = raiseFault .bounds s ∨ t = respond .ok { updateCore s.srcByte off len s with phase := .updating })) ∨
    (s.fault = false ∧ i = .finalize ∧ t = respondDigest
      { contextReset (serializeDigest (feedLengthField s.lengthField (feedPadding s))) with phase := .initialized }) := by
  cases hf : s.fault with
  | true =>
    rw [exec_refused hf hi] at h
    cases h
    exact .inl ⟨rfl, rfl⟩
  | false =>
    rcases hi with rfl | ⟨off, len, rfl⟩ | rfl
    · rw [exec_init_ok hf] at h
      cases h
      exact .inr (.inl ⟨rfl, rfl, rfl⟩)
    · by_cases hb : off + len ≤ s.srcSize
      · rw [exec_update_ok hf hb] at h
        cases h
        exact .inr (.inr (.inl ⟨rfl, off, len, rfl, .inr rfl⟩))
      · rw [exec_update_bounds hf (by omega)] at h
        cases h
        exact .inr (.inr (.inl ⟨rfl, off, len, rfl, .inl rfl⟩))
    · rw [exec_finalize_ok hf] at h
      cases h
      exact .inr (.inr (.inr ⟨rfl, rfl, rfl⟩))

/-- Every command answers a next state. -/
theorem exec_command_next {i : Instr} (hi : i = .init ∨ (∃ off len, i = .update off len) ∨ i = .finalize) (s : State) :
    ∃ t, exec i s = .next t := by
  cases hf : s.fault with
  | true => exact ⟨_, exec_refused hf hi⟩
  | false =>
    rcases hi with rfl | ⟨off, len, rfl⟩ | rfl
    · exact ⟨_, exec_init_ok hf⟩
    · by_cases hb : off + len ≤ s.srcSize
      · exact ⟨_, exec_update_ok hf hb⟩
      · exact ⟨_, exec_update_bounds hf (by omega)⟩
    · exact ⟨_, exec_finalize_ok hf⟩

end Sys2Proof.Machine
end

