-- ==== Sys2Proof/Laws/Memory.lean ====
section
/-! SUPPORT. The source memory: what the host presents is in canonical form, inside its window, and is read back byte for
byte. -/

namespace Sys2Proof.Machine

theorem Memory.wfFrom_mono {lo lo' : Nat} (h : lo ≤ lo') (m : Memory) (hm : m.wfFrom lo' = true) :
    m.wfFrom lo = true := by
  cases m with
  | nil => rfl
  | cons c m =>
    obtain ⟨a, b⟩ := c
    simp only [Memory.wfFrom, Bool.and_eq_true, decide_eq_true_eq] at hm ⊢
    exact ⟨⟨by omega, hm.1.2⟩, hm.2⟩

theorem Memory.wfFrom_ofBytesAt (bs : List Byte) (a : Nat) : (Memory.ofBytesAt a bs).wfFrom a = true := by
  induction bs generalizing a with
  | nil => rfl
  | cons b bs ih =>
    simp only [Memory.ofBytesAt]
    split
    · exact Memory.wfFrom_mono (Nat.le_succ a) _ (ih (a + 1))
    · simp_all [Memory.wfFrom]

theorem Memory.within_ofBytesAt (bs : List Byte) (a : Nat) :
    (Memory.ofBytesAt a bs).within (a + bs.length) = true := by
  induction bs generalizing a with
  | nil => rfl
  | cons b bs ih =>
    have h := ih (a + 1)
    rw [show a + 1 + bs.length = a + (b :: bs).length by simp; omega] at h
    simp only [Memory.ofBytesAt]
    split
    · exact h
    · simp only [Memory.within, List.all_cons, Bool.and_eq_true, decide_eq_true_eq]
      exact ⟨by simp, h⟩

/-- A presented window is in canonical form. -/
@[simp] theorem Memory.wf_ofBytes (bs : List Byte) : (Memory.ofBytes bs).wf = true :=
  Memory.wfFrom_ofBytesAt bs 0

/-- A presented window has no cell past its size. -/
@[simp] theorem Memory.within_ofBytes (bs : List Byte) : (Memory.ofBytes bs).within bs.length = true := by
  simpa [Memory.ofBytes] using Memory.within_ofBytesAt bs 0

theorem Memory.read_ofBytesAt (bs : List Byte) (a j : Nat) :
    (Memory.ofBytesAt a bs).read j = if a ≤ j then bs.getD (j - a) 0x00#8 else 0x00#8 := by
  induction bs generalizing a with
  | nil => simp [Memory.ofBytesAt, Memory.read, Memory.unlisted]
  | cons b bs ih =>
    simp only [Memory.ofBytesAt]
    split
    · rw [ih]
      rcases Nat.lt_trichotomy j a with h | rfl | h
      · rw [if_neg (by omega), if_neg (by omega)]
      · simp_all [Memory.unlisted]
      · rw [if_pos (by omega), if_pos (by omega), show j - a = j - (a + 1) + 1 by omega, List.getD_cons_succ]
    · simp only [Memory.read]
      split
      · next h => subst h; simp
      · rw [ih]
        rcases Nat.lt_trichotomy j a with h | rfl | h
        · rw [if_neg (by omega), if_neg (by omega)]
        · omega
        · rw [if_pos (by omega), if_pos (by omega), show j - a = j - (a + 1) + 1 by omega, List.getD_cons_succ]

/-- Byte j of a presented window reads as the byte presented there. -/
@[simp] theorem Memory.read_ofBytes (bs : List Byte) (j : Nat) : (Memory.ofBytes bs).read j = bs.getD j 0x00#8 := by
  simp [Memory.ofBytes, Memory.read_ofBytesAt]

end Sys2Proof.Machine
end

