-- ==== Sys2Proof/Laws/PerInstr.lean ====
section
/-! SUPPORT. Laws of every instruction as syntax, one lemma per constructor: its encoding has the shape of its format
(30_encoding.md R71 to R74, R85). -/

namespace Sys2Proof.Laws.EncodeShape

/-- A command's words are as many as its header says, with RSVD = 0 and one of the three opcodes; a micro-operation's SC is
at most 48. -/
def Statement (i : Instr) : Prop :=
  match encode i with
  | .command [] => False
  | .command (h :: ws) =>
    ws.length + 1 = commandLength h ∧ headerRsvd h = 0#24 ∧ 1 ≤ (headerOpc h).toNat ∧ (headerOpc h).toNat ≤ 3
  | .micro sc => sc.toNat ≤ 48

theorem init : Statement .init := by
  refine ⟨rfl, rfl, ?_, ?_⟩ <;> decide

theorem update (off len : Nat) : Statement (.update off len) := by
  refine ⟨rfl, rfl, ?_, ?_⟩ <;> decide

theorem finalize : Statement .finalize := by
  refine ⟨rfl, rfl, ?_, ?_⟩ <;> decide

theorem stepR1_00 : Statement .stepR1_00 := (by decide : (0x00#6).toNat ≤ 48)

theorem stepR1_01 : Statement .stepR1_01 := (by decide : (0x01#6).toNat ≤ 48)

theorem stepR1_02 : Statement .stepR1_02 := (by decide : (0x02#6).toNat ≤ 48)

theorem stepR1_03 : Statement .stepR1_03 := (by decide : (0x03#6).toNat ≤ 48)

theorem stepR1_04 : Statement .stepR1_04 := (by decide : (0x04#6).toNat ≤ 48)

theorem stepR1_05 : Statement .stepR1_05 := (by decide : (0x05#6).toNat ≤ 48)

theorem stepR1_06 : Statement .stepR1_06 := (by decide : (0x06#6).toNat ≤ 48)

theorem stepR1_07 : Statement .stepR1_07 := (by decide : (0x07#6).toNat ≤ 48)

theorem stepR1_08 : Statement .stepR1_08 := (by decide : (0x08#6).toNat ≤ 48)

theorem stepR1_09 : Statement .stepR1_09 := (by decide : (0x09#6).toNat ≤ 48)

theorem stepR1_10 : Statement .stepR1_10 := (by decide : (0x0a#6).toNat ≤ 48)

theorem stepR1_11 : Statement .stepR1_11 := (by decide : (0x0b#6).toNat ≤ 48)

theorem stepR1_12 : Statement .stepR1_12 := (by decide : (0x0c#6).toNat ≤ 48)

theorem stepR1_13 : Statement .stepR1_13 := (by decide : (0x0d#6).toNat ≤ 48)

theorem stepR1_14 : Statement .stepR1_14 := (by decide : (0x0e#6).toNat ≤ 48)

theorem stepR1_15 : Statement .stepR1_15 := (by decide : (0x0f#6).toNat ≤ 48)

theorem stepR2_00 : Statement .stepR2_00 := (by decide : (0x10#6).toNat ≤ 48)

theorem stepR2_01 : Statement .stepR2_01 := (by decide : (0x11#6).toNat ≤ 48)

theorem stepR2_02 : Statement .stepR2_02 := (by decide : (0x12#6).toNat ≤ 48)

theorem stepR2_03 : Statement .stepR2_03 := (by decide : (0x13#6).toNat ≤ 48)

theorem stepR2_04 : Statement .stepR2_04 := (by decide : (0x14#6).toNat ≤ 48)

theorem stepR2_05 : Statement .stepR2_05 := (by decide : (0x15#6).toNat ≤ 48)

theorem stepR2_06 : Statement .stepR2_06 := (by decide : (0x16#6).toNat ≤ 48)

theorem stepR2_07 : Statement .stepR2_07 := (by decide : (0x17#6).toNat ≤ 48)

theorem stepR2_08 : Statement .stepR2_08 := (by decide : (0x18#6).toNat ≤ 48)

theorem stepR2_09 : Statement .stepR2_09 := (by decide : (0x19#6).toNat ≤ 48)

theorem stepR2_10 : Statement .stepR2_10 := (by decide : (0x1a#6).toNat ≤ 48)

theorem stepR2_11 : Statement .stepR2_11 := (by decide : (0x1b#6).toNat ≤ 48)

theorem stepR2_12 : Statement .stepR2_12 := (by decide : (0x1c#6).toNat ≤ 48)

theorem stepR2_13 : Statement .stepR2_13 := (by decide : (0x1d#6).toNat ≤ 48)

theorem stepR2_14 : Statement .stepR2_14 := (by decide : (0x1e#6).toNat ≤ 48)

theorem stepR2_15 : Statement .stepR2_15 := (by decide : (0x1f#6).toNat ≤ 48)

theorem stepR3_00 : Statement .stepR3_00 := (by decide : (0x20#6).toNat ≤ 48)

theorem stepR3_01 : Statement .stepR3_01 := (by decide : (0x21#6).toNat ≤ 48)

theorem stepR3_02 : Statement .stepR3_02 := (by decide : (0x22#6).toNat ≤ 48)

theorem stepR3_03 : Statement .stepR3_03 := (by decide : (0x23#6).toNat ≤ 48)

theorem stepR3_04 : Statement .stepR3_04 := (by decide : (0x24#6).toNat ≤ 48)

theorem stepR3_05 : Statement .stepR3_05 := (by decide : (0x25#6).toNat ≤ 48)

theorem stepR3_06 : Statement .stepR3_06 := (by decide : (0x26#6).toNat ≤ 48)

theorem stepR3_07 : Statement .stepR3_07 := (by decide : (0x27#6).toNat ≤ 48)

theorem stepR3_08 : Statement .stepR3_08 := (by decide : (0x28#6).toNat ≤ 48)

theorem stepR3_09 : Statement .stepR3_09 := (by decide : (0x29#6).toNat ≤ 48)

theorem stepR3_10 : Statement .stepR3_10 := (by decide : (0x2a#6).toNat ≤ 48)

theorem stepR3_11 : Statement .stepR3_11 := (by decide : (0x2b#6).toNat ≤ 48)

theorem stepR3_12 : Statement .stepR3_12 := (by decide : (0x2c#6).toNat ≤ 48)

theorem stepR3_13 : Statement .stepR3_13 := (by decide : (0x2d#6).toNat ≤ 48)

theorem stepR3_14 : Statement .stepR3_14 := (by decide : (0x2e#6).toNat ≤ 48)

theorem stepR3_15 : Statement .stepR3_15 := (by decide : (0x2f#6).toNat ≤ 48)

theorem feedforward : Statement .feedforward := (by decide : (0x30#6).toNat ≤ 48)

end Sys2Proof.Laws.EncodeShape
end

