-- ==== Sys2Proof/Tests/Slice0.lean ====
section
/-! SUPPORT. Tests: ill-formed terms, decoding of words written out from the spec's tables, one-step vectors of
95_test_vectors.md (and of the derivation script of its appendix, where a comment says so), and for each statement with
hypotheses a state and operands that meet them. -/

namespace Sys2Proof.Machine

set_option Elab.async false

/-! ## Helpers -/

/-- The outcome is a next state of which the check holds. -/
def nextIs (o : Host.Outcome State Fault Refusal) (check : State → Bool) : Bool :=
  match o with
  | .next t => check t
  | _ => false

theorem exists_of_nextIs {o : Host.Outcome State Fault Refusal} {check : State → Bool} (h : nextIs o check = true) :
    ∃ t, o = .next t ∧ check t = true := by
  cases o with
  | next t => exact ⟨t, rfl, h⟩
  | fault f => cases h
  | refused r => cases h

theorem exists_next {o : Host.Outcome State Fault Refusal} (h : nextIs o (fun _ => true) = true) : ∃ t, o = .next t := by
  obtain ⟨t, h, -⟩ := exists_of_nextIs h
  exact ⟨t, h⟩

/-- n ascending bytes, the first 0x00. -/
def ascending (n : Nat) : List Byte := (List.range n).map fun j => BitVec.ofNat 8 j

/-- A fresh machine to which the host has presented bytes. -/
def withSource (bytes : List Byte) : State := presentSource bytes State.reset

/-- A fresh machine with words on CMD. -/
def withWords (ws : List Word) : State := { State.reset with inbox := ws.map .word }

/-- A machine with FAULT = 1, CAUSE = 1 and words on CMD. -/
def faulted (ws : List Word) : State := { withWords ws with fault := true, cause := .bounds }

/-- A running compression over the block 00 01 .. 3f, at SC and with these working registers. -/
def inCompression (sc : BitVec 6) (w : Working) : State :=
  { startCompression (listByte (ascending 64)) 0 State.reset with sc := sc, work := w }

/-- A running compression over the block of the empty message (V-C3). -/
def inEmptyBlock (sc : BitVec 6) (w : Working) : State :=
  { startCompression (listByte (0x80#8 :: List.replicate 63 0x00#8)) 0 State.reset with sc := sc, work := w }

/-- The words of a running compression after one step of the machine from each row of a table. -/
def stepsThrough (n : Nat) : List Working → Bool
  | w :: w' :: ws =>
    nextIs (step (inEmptyBlock (BitVec.ofNat 6 n) w)) (fun t => t.work == w' && t.sc == BitVec.ofNat 6 (n + 1)) &&
      stepsThrough (n + 1) (w' :: ws)
  | _ => true

/-- UPDATE of a whole message and FINALIZE, from a fresh machine. -/
def digestOf (bytes : List Byte) : List Byte :=
  match exec (.update 0 bytes.length) (withSource bytes) with
  | .next t =>
    match exec .finalize t with
    | .next u => u.digest.toList
    | _ => []
  | _ => []

/-! ## Ill-formed terms are refused -/

theorem test_wf_update_off : (Instr.update 0x100000000 0).wf = false := by decide
theorem test_wf_update_len : (Instr.update 0 0x100000000).wf = false := by decide
theorem test_wf_update_max : (Instr.update 0xffffffff 0xffffffff).wf = true := by decide
theorem test_wf_source : (HostEvent.src (List.replicate 0x100000000 0x00#8)).wf = false := by
  simp only [HostEvent.wf, List.length_replicate]; decide
theorem test_wf_line_update_off : (Line.update 0x100000000 0).wf = false := by decide
theorem test_wf_line_update_len : (Line.update 0 0x100000000).wf = false := by decide
theorem test_wf_line_word : (Line.word 0x100000000).wf = false := by decide
theorem test_wf_line_hash : (Line.hash 0x100000000).wf = false := by decide
theorem test_wf_line_source : (Line.src (List.replicate 0x100000000 0x00#8)).wf = false := by
  simp only [Line.wf, List.length_replicate]; decide

/-! ## Decoding: words written out from 30_encoding.md R72, R73 and R88 -/

theorem test_decode_init : decodeCommand [0b00000000000000000000000000000001#32] = .command .init [] := by decide
theorem test_decode_update : decodeCommand
    [0b00000000000000000000000000000010#32, 0b00000000000000000000000000000111#32, 0b00000000000000000000000000111100#32] =
    .command (.update 7 60) [] := by decide
theorem test_decode_update_unsigned : decodeCommand [0x00000002#32, 0xffffffff#32, 0x80000000#32, 0x00000001#32] =
    .command (.update 4294967295 2147483648) [0x00000001#32] := by decide
theorem test_decode_finalize : decodeCommand [0b00000000000000000000000000000011#32] = .command .finalize [] := by decide
theorem test_decode_reserved_opcodes :
    [0x00000000#32, 0x00000004#32, 0x00000009#32, 0x000000ff#32].map (fun h => decodeCommand [h]) =
    [.illegal (.reservedOpcode 0x00#8) [], .illegal (.reservedOpcode 0x04#8) [], .illegal (.reservedOpcode 0x09#8) [],
      .illegal (.reservedOpcode 0xff#8) []] := by decide
theorem test_decode_reserved_bits :
    [0x00000101#32, 0x80000002#32, 0x00000103#32].map (fun h => decodeCommand [h]) =
    [.illegal .reservedBits [], .illegal .reservedBits [], .illegal .reservedBits []] := by decide
theorem test_decode_update_incomplete : decodeCommand [0x00000002#32, 0x00000000#32] = .incomplete := by decide

theorem test_decode_round1 : [0b000000#6, 0b000001#6, 0b000010#6, 0b000011#6, 0b000100#6, 0b000101#6, 0b000110#6, 0b000111#6, 0b001000#6, 0b001001#6, 0b001010#6, 0b001011#6, 0b001100#6, 0b001101#6, 0b001110#6, 0b001111#6].map decodeMicro =
    [some .stepR1_00, some .stepR1_01, some .stepR1_02, some .stepR1_03, some .stepR1_04, some .stepR1_05, some .stepR1_06, some .stepR1_07, some .stepR1_08, some .stepR1_09, some .stepR1_10, some .stepR1_11, some .stepR1_12, some .stepR1_13, some .stepR1_14, some .stepR1_15] := by decide
theorem test_decode_round2 : [0b010000#6, 0b010001#6, 0b010010#6, 0b010011#6, 0b010100#6, 0b010101#6, 0b010110#6, 0b010111#6, 0b011000#6, 0b011001#6, 0b011010#6, 0b011011#6, 0b011100#6, 0b011101#6, 0b011110#6, 0b011111#6].map decodeMicro =
    [some .stepR2_00, some .stepR2_01, some .stepR2_02, some .stepR2_03, some .stepR2_04, some .stepR2_05, some .stepR2_06, some .stepR2_07, some .stepR2_08, some .stepR2_09, some .stepR2_10, some .stepR2_11, some .stepR2_12, some .stepR2_13, some .stepR2_14, some .stepR2_15] := by decide
theorem test_decode_round3 : [0b100000#6, 0b100001#6, 0b100010#6, 0b100011#6, 0b100100#6, 0b100101#6, 0b100110#6, 0b100111#6, 0b101000#6, 0b101001#6, 0b101010#6, 0b101011#6, 0b101100#6, 0b101101#6, 0b101110#6, 0b101111#6].map decodeMicro =
    [some .stepR3_00, some .stepR3_01, some .stepR3_02, some .stepR3_03, some .stepR3_04, some .stepR3_05, some .stepR3_06, some .stepR3_07, some .stepR3_08, some .stepR3_09, some .stepR3_10, some .stepR3_11, some .stepR3_12, some .stepR3_13, some .stepR3_14, some .stepR3_15] := by decide
theorem test_decode_feedforward : decodeMicro 0b110000#6 = some .feedforward := by decide
theorem test_decode_unreachable : [0b110001#6, 0b111111#6].map decodeMicro = [none, none] := by decide
theorem test_table_words : decodeTableWord 32 0x00000001 = some .init ∧ decodeTableWord 32 0x00000002 = some (.update 0 0) ∧
    decodeTableWord 96 0x000000030000000500000002 = some (.update 5 3) ∧ decodeTableWord 32 0x00000003 = some .finalize ∧
    decodeTableWord 8 0x2f = some .stepR3_15 ∧ decodeTableWord 8 0x31 = none ∧ decodeTableWord 32 0x00000100 = none := by
  decide

/-! ## One step of each micro-operation: the block 00 01 .. 3f from the initial state, in which all sixteen words differ
(values of the derivation script in the appendix of 95_test_vectors.md; their end is V-U5) -/

theorem test_stepR1_00 : nextIs (exec .stepR1_00 (inCompression 0#6 ⟨0x67452301#32, 0xefcdab89#32, 0x98badcfe#32, 0x10325476#32⟩))
    (fun t => t.work == ⟨0x181007f8#32, 0xefcdab89#32, 0x98badcfe#32, 0x10325476#32⟩ && t.sc == 1#6) = true := by decide +kernel
theorem test_stepR1_01 : nextIs (exec .stepR1_01 (inCompression 1#6 ⟨0x181007f8#32, 0xefcdab89#32, 0x98badcfe#32, 0x10325476#32⟩))
    (fun t => t.work == ⟨0x181007f8#32, 0xefcdab89#32, 0x98badcfe#32, 0xf19a844f#32⟩ && t.sc == 2#6) = true := by decide +kernel
theorem test_stepR1_02 : nextIs (exec .stepR1_02 (inCompression 2#6 ⟨0x181007f8#32, 0xefcdab89#32, 0x98badcfe#32, 0xf19a844f#32⟩))
    (fun t => t.work == ⟨0x181007f8#32, 0xefcdab89#32, 0xd0ae7610#32, 0xf19a844f#32⟩ && t.sc == 3#6) = true := by decide +kernel
theorem test_stepR1_03 : nextIs (exec .stepR1_03 (inCompression 3#6 ⟨0x181007f8#32, 0xefcdab89#32, 0xd0ae7610#32, 0xf19a844f#32⟩))
    (fun t => t.work == ⟨0x181007f8#32, 0xf3eebbad#32, 0xd0ae7610#32, 0xf19a844f#32⟩ && t.sc == 4#6) = true := by decide +kernel
theorem test_stepR1_04 : nextIs (exec .stepR1_04 (inCompression 4#6 ⟨0x181007f8#32, 0xf3eebbad#32, 0xd0ae7610#32, 0xf19a844f#32⟩))
    (fun t => t.work == ⟨0xdf027a57#32, 0xf3eebbad#32, 0xd0ae7610#32, 0xf19a844f#32⟩ && t.sc == 5#6) = true := by decide +kernel
theorem test_stepR1_05 : nextIs (exec .stepR1_05 (inCompression 5#6 ⟨0xdf027a57#32, 0xf3eebbad#32, 0xd0ae7610#32, 0xf19a844f#32⟩))
    (fun t => t.work == ⟨0xdf027a57#32, 0xf3eebbad#32, 0xd0ae7610#32, 0x2f6bb46e#32⟩ && t.sc == 6#6) = true := by decide +kernel
theorem test_stepR1_06 : nextIs (exec .stepR1_06 (inCompression 6#6 ⟨0xdf027a57#32, 0xf3eebbad#32, 0xd0ae7610#32, 0x2f6bb46e#32⟩))
    (fun t => t.work == ⟨0xdf027a57#32, 0xf3eebbad#32, 0x76577e5a#32, 0x2f6bb46e#32⟩ && t.sc == 7#6) = true := by decide +kernel
theorem test_stepR1_07 : nextIs (exec .stepR1_07 (inCompression 7#6 ⟨0xdf027a57#32, 0xf3eebbad#32, 0x76577e5a#32, 0x2f6bb46e#32⟩))
    (fun t => t.work == ⟨0xdf027a57#32, 0x68c61280#32, 0x76577e5a#32, 0x2f6bb46e#32⟩ && t.sc == 8#6) = true := by decide +kernel
theorem test_stepR1_08 : nextIs (exec .stepR1_08 (inCompression 8#6 ⟨0xdf027a57#32, 0x68c61280#32, 0x76577e5a#32, 0x2f6bb46e#32⟩))
    (fun t => t.work == ⟨0x4ca28f2b#32, 0x68c61280#32, 0x76577e5a#32, 0x2f6bb46e#32⟩ && t.sc == 9#6) = true := by decide +kernel
theorem test_stepR1_09 : nextIs (exec .stepR1_09 (inCompression 9#6 ⟨0x4ca28f2b#32, 0x68c61280#32, 0x76577e5a#32, 0x2f6bb46e#32⟩))
    (fun t => t.work == ⟨0x4ca28f2b#32, 0x68c61280#32, 0x76577e5a#32, 0xb4a5f168#32⟩ && t.sc == 10#6) = true := by decide +kernel
theorem test_stepR1_10 : nextIs (exec .stepR1_10 (inCompression 10#6 ⟨0x4ca28f2b#32, 0x68c61280#32, 0x76577e5a#32, 0xb4a5f168#32⟩))
    (fun t => t.work == ⟨0x4ca28f2b#32, 0x68c61280#32, 0x21595773#32, 0xb4a5f168#32⟩ && t.sc == 11#6) = true := by decide +kernel
theorem test_stepR1_11 : nextIs (exec .stepR1_11 (inCompression 11#6 ⟨0x4ca28f2b#32, 0x68c61280#32, 0x21595773#32, 0xb4a5f168#32⟩))
    (fun t => t.work == ⟨0x4ca28f2b#32, 0xc8a024c0#32, 0x21595773#32, 0xb4a5f168#32⟩ && t.sc == 12#6) = true := by decide +kernel
theorem test_stepR1_12 : nextIs (exec .stepR1_12 (inCompression 12#6 ⟨0x4ca28f2b#32, 0xc8a024c0#32, 0x21595773#32, 0xb4a5f168#32⟩))
    (fun t => t.work == ⟨0x9ed4ae1d#32, 0xc8a024c0#32, 0x21595773#32, 0xb4a5f168#32⟩ && t.sc == 13#6) = true := by decide +kernel
theorem test_stepR1_13 : nextIs (exec .stepR1_13 (inCompression 13#6 ⟨0x9ed4ae1d#32, 0xc8a024c0#32, 0x21595773#32, 0xb4a5f168#32⟩))
    (fun t => t.work == ⟨0x9ed4ae1d#32, 0xc8a024c0#32, 0x21595773#32, 0xb2cdff4a#32⟩ && t.sc == 14#6) = true := by decide +kernel
theorem test_stepR1_14 : nextIs (exec .stepR1_14 (inCompression 14#6 ⟨0x9ed4ae1d#32, 0xc8a024c0#32, 0x21595773#32, 0xb2cdff4a#32⟩))
    (fun t => t.work == ⟨0x9ed4ae1d#32, 0xc8a024c0#32, 0xc1f999bb#32, 0xb2cdff4a#32⟩ && t.sc == 15#6) = true := by decide +kernel
theorem test_stepR1_15 : nextIs (exec .stepR1_15 (inCompression 15#6 ⟨0x9ed4ae1d#32, 0xc8a024c0#32, 0xc1f999bb#32, 0xb2cdff4a#32⟩))
    (fun t => t.work == ⟨0x9ed4ae1d#32, 0x08553561#32, 0xc1f999bb#32, 0xb2cdff4a#32⟩ && t.sc == 16#6) = true := by decide +kernel
theorem test_stepR2_00 : nextIs (exec .stepR2_00 (inCompression 16#6 ⟨0x9ed4ae1d#32, 0x08553561#32, 0xc1f999bb#32, 0xb2cdff4a#32⟩))
    (fun t => t.work == ⟨0xe9b7310b#32, 0x08553561#32, 0xc1f999bb#32, 0xb2cdff4a#32⟩ && t.sc == 17#6) = true := by decide +kernel
theorem test_stepR2_01 : nextIs (exec .stepR2_01 (inCompression 17#6 ⟨0xe9b7310b#32, 0x08553561#32, 0xc1f999bb#32, 0xb2cdff4a#32⟩))
    (fun t => t.work == ⟨0xe9b7310b#32, 0x08553561#32, 0xc1f999bb#32, 0x4af763dd#32⟩ && t.sc == 18#6) = true := by decide +kernel
theorem test_stepR2_02 : nextIs (exec .stepR2_02 (inCompression 18#6 ⟨0xe9b7310b#32, 0x08553561#32, 0xc1f999bb#32, 0x4af763dd#32⟩))
    (fun t => t.work == ⟨0xe9b7310b#32, 0x08553561#32, 0x2acb7b11#32, 0x4af763dd#32⟩ && t.sc == 19#6) = true := by decide +kernel
theorem test_stepR2_03 : nextIs (exec .stepR2_03 (inCompression 19#6 ⟨0xe9b7310b#32, 0x08553561#32, 0x2acb7b11#32, 0x4af763dd#32⟩))
    (fun t => t.work == ⟨0xe9b7310b#32, 0x2a686020#32, 0x2acb7b11#32, 0x4af763dd#32⟩ && t.sc == 20#6) = true := by decide +kernel
theorem test_stepR2_04 : nextIs (exec .stepR2_04 (inCompression 20#6 ⟨0xe9b7310b#32, 0x2a686020#32, 0x2acb7b11#32, 0x4af763dd#32⟩))
    (fun t => t.work == ⟨0xb15895cb#32, 0x2a686020#32, 0x2acb7b11#32, 0x4af763dd#32⟩ && t.sc == 21#6) = true := by decide +kernel
theorem test_stepR2_05 : nextIs (exec .stepR2_05 (inCompression 21#6 ⟨0xb15895cb#32, 0x2a686020#32, 0x2acb7b11#32, 0x4af763dd#32⟩))
    (fun t => t.work == ⟨0xb15895cb#32, 0x2a686020#32, 0x2acb7b11#32, 0xdb0c717c#32⟩ && t.sc == 22#6) = true := by decide +kernel
theorem test_stepR2_06 : nextIs (exec .stepR2_06 (inCompression 22#6 ⟨0xb15895cb#32, 0x2a686020#32, 0x2acb7b11#32, 0xdb0c717c#32⟩))
    (fun t => t.work == ⟨0xb15895cb#32, 0x2a686020#32, 0x79166ccf#32, 0xdb0c717c#32⟩ && t.sc == 23#6) = true := by decide +kernel
theorem test_stepR2_07 : nextIs (exec .stepR2_07 (inCompression 23#6 ⟨0xb15895cb#32, 0x2a686020#32, 0x79166ccf#32, 0xdb0c717c#32⟩))
    (fun t => t.work == ⟨0xb15895cb#32, 0xb09796a7#32, 0x79166ccf#32, 0xdb0c717c#32⟩ && t.sc == 24#6) = true := by decide +kernel
theorem test_stepR2_08 : nextIs (exec .stepR2_08 (inCompression 24#6 ⟨0xb15895cb#32, 0xb09796a7#32, 0x79166ccf#32, 0xdb0c717c#32⟩))
    (fun t => t.work == ⟨0x7fdc6ad8#32, 0xb09796a7#32, 0x79166ccf#32, 0xdb0c717c#32⟩ && t.sc == 25#6) = true := by decide +kernel
theorem test_stepR2_09 : nextIs (exec .stepR2_09 (inCompression 25#6 ⟨0x7fdc6ad8#32, 0xb09796a7#32, 0x79166ccf#32, 0xdb0c717c#32⟩))
    (fun t => t.work == ⟨0x7fdc6ad8#32, 0xb09796a7#32, 0x79166ccf#32, 0x47ee5f99#32⟩ && t.sc == 26#6) = true := by decide +kernel
theorem test_stepR2_10 : nextIs (exec .stepR2_10 (inCompression 26#6 ⟨0x7fdc6ad8#32, 0xb09796a7#32, 0x79166ccf#32, 0x47ee5f99#32⟩))
    (fun t => t.work == ⟨0x7fdc6ad8#32, 0xb09796a7#32, 0x42dc52ed#32, 0x47ee5f99#32⟩ && t.sc == 27#6) = true := by decide +kernel
theorem test_stepR2_11 : nextIs (exec .stepR2_11 (inCompression 27#6 ⟨0x7fdc6ad8#32, 0xb09796a7#32, 0x42dc52ed#32, 0x47ee5f99#32⟩))
    (fun t => t.work == ⟨0x7fdc6ad8#32, 0x148a31c6#32, 0x42dc52ed#32, 0x47ee5f99#32⟩ && t.sc == 28#6) = true := by decide +kernel
theorem test_stepR2_12 : nextIs (exec .stepR2_12 (inCompression 28#6 ⟨0x7fdc6ad8#32, 0x148a31c6#32, 0x42dc52ed#32, 0x47ee5f99#32⟩))
    (fun t => t.work == ⟨0x81da2a51#32, 0x148a31c6#32, 0x42dc52ed#32, 0x47ee5f99#32⟩ && t.sc == 29#6) = true := by decide +kernel
theorem test_stepR2_13 : nextIs (exec .stepR2_13 (inCompression 29#6 ⟨0x81da2a51#32, 0x148a31c6#32, 0x42dc52ed#32, 0x47ee5f99#32⟩))
    (fun t => t.work == ⟨0x81da2a51#32, 0x148a31c6#32, 0x42dc52ed#32, 0x4d252278#32⟩ && t.sc == 30#6) = true := by decide +kernel
theorem test_stepR2_14 : nextIs (exec .stepR2_14 (inCompression 30#6 ⟨0x81da2a51#32, 0x148a31c6#32, 0x42dc52ed#32, 0x4d252278#32⟩))
    (fun t => t.work == ⟨0x81da2a51#32, 0x148a31c6#32, 0x2e3805a4#32, 0x4d252278#32⟩ && t.sc == 31#6) = true := by decide +kernel
theorem test_stepR2_15 : nextIs (exec .stepR2_15 (inCompression 31#6 ⟨0x81da2a51#32, 0x148a31c6#32, 0x2e3805a4#32, 0x4d252278#32⟩))
    (fun t => t.work == ⟨0x81da2a51#32, 0x61617770#32, 0x2e3805a4#32, 0x4d252278#32⟩ && t.sc == 32#6) = true := by decide +kernel
theorem test_stepR3_00 : nextIs (exec .stepR3_00 (inCompression 32#6 ⟨0x81da2a51#32, 0x61617770#32, 0x2e3805a4#32, 0x4d252278#32⟩))
    (fun t => t.work == ⟨0xb1933cf7#32, 0x61617770#32, 0x2e3805a4#32, 0x4d252278#32⟩ && t.sc == 33#6) = true := by decide +kernel
theorem test_stepR3_01 : nextIs (exec .stepR3_01 (inCompression 33#6 ⟨0xb1933cf7#32, 0x61617770#32, 0x2e3805a4#32, 0x4d252278#32⟩))
    (fun t => t.work == ⟨0xb1933cf7#32, 0x61617770#32, 0x2e3805a4#32, 0xd6fab9bb#32⟩ && t.sc == 34#6) = true := by decide +kernel
theorem test_stepR3_02 : nextIs (exec .stepR3_02 (inCompression 34#6 ⟨0xb1933cf7#32, 0x61617770#32, 0x2e3805a4#32, 0xd6fab9bb#32⟩))
    (fun t => t.work == ⟨0xb1933cf7#32, 0x61617770#32, 0x67a48db1#32, 0xd6fab9bb#32⟩ && t.sc == 35#6) = true := by decide +kernel
theorem test_stepR3_03 : nextIs (exec .stepR3_03 (inCompression 35#6 ⟨0xb1933cf7#32, 0x61617770#32, 0x67a48db1#32, 0xd6fab9bb#32⟩))
    (fun t => t.work == ⟨0xb1933cf7#32, 0x4e9f021d#32, 0x67a48db1#32, 0xd6fab9bb#32⟩ && t.sc == 36#6) = true := by decide +kernel
theorem test_stepR3_04 : nextIs (exec .stepR3_04 (inCompression 36#6 ⟨0xb1933cf7#32, 0x4e9f021d#32, 0x67a48db1#32, 0xd6fab9bb#32⟩))
    (fun t => t.work == ⟨0x59c33db9#32, 0x4e9f021d#32, 0x67a48db1#32, 0xd6fab9bb#32⟩ && t.sc == 37#6) = true := by decide +kernel
theorem test_stepR3_05 : nextIs (exec .stepR3_05 (inCompression 37#6 ⟨0x59c33db9#32, 0x4e9f021d#32, 0x67a48db1#32, 0xd6fab9bb#32⟩))
    (fun t => t.work == ⟨0x59c33db9#32, 0x4e9f021d#32, 0x67a48db1#32, 0xef0133c3#32⟩ && t.sc == 38#6) = true := by decide +kernel
theorem test_stepR3_06 : nextIs (exec .stepR3_06 (inCompression 38#6 ⟨0x59c33db9#32, 0x4e9f021d#32, 0x67a48db1#32, 0xef0133c3#32⟩))
    (fun t => t.work == ⟨0x59c33db9#32, 0x4e9f021d#32, 0xacf68f4f#32, 0xef0133c3#32⟩ && t.sc == 39#6) = true := by decide +kernel
theorem test_stepR3_07 : nextIs (exec .stepR3_07 (inCompression 39#6 ⟨0x59c33db9#32, 0x4e9f021d#32, 0xacf68f4f#32, 0xef0133c3#32⟩))
    (fun t => t.work == ⟨0x59c33db9#32, 0xd4158973#32, 0xacf68f4f#32, 0xef0133c3#32⟩ && t.sc == 40#6) = true := by decide +kernel
theorem test_stepR3_08 : nextIs (exec .stepR3_08 (inCompression 40#6 ⟨0x59c33db9#32, 0xd4158973#32, 0xacf68f4f#32, 0xef0133c3#32⟩))
    (fun t => t.work == ⟨0x3c2b22eb#32, 0xd4158973#32, 0xacf68f4f#32, 0xef0133c3#32⟩ && t.sc == 41#6) = true := by decide +kernel
theorem test_stepR3_09 : nextIs (exec .stepR3_09 (inCompression 41#6 ⟨0x3c2b22eb#32, 0xd4158973#32, 0xacf68f4f#32, 0xef0133c3#32⟩))
    (fun t => t.work == ⟨0x3c2b22eb#32, 0xd4158973#32, 0xacf68f4f#32, 0x92d2bf93#32⟩ && t.sc == 42#6) = true := by decide +kernel
theorem test_stepR3_10 : nextIs (exec .stepR3_10 (inCompression 42#6 ⟨0x3c2b22eb#32, 0xd4158973#32, 0xacf68f4f#32, 0x92d2bf93#32⟩))
    (fun t => t.work == ⟨0x3c2b22eb#32, 0xd4158973#32, 0x95207d6e#32, 0x92d2bf93#32⟩ && t.sc == 43#6) = true := by decide +kernel
theorem test_stepR3_11 : nextIs (exec .stepR3_11 (inCompression 43#6 ⟨0x3c2b22eb#32, 0xd4158973#32, 0x95207d6e#32, 0x92d2bf93#32⟩))
    (fun t => t.work == ⟨0x3c2b22eb#32, 0xc52f5aff#32, 0x95207d6e#32, 0x92d2bf93#32⟩ && t.sc == 44#6) = true := by decide +kernel
theorem test_stepR3_12 : nextIs (exec .stepR3_12 (inCompression 44#6 ⟨0x3c2b22eb#32, 0xc52f5aff#32, 0x95207d6e#32, 0x92d2bf93#32⟩))
    (fun t => t.work == ⟨0xe7859cd3#32, 0xc52f5aff#32, 0x95207d6e#32, 0x92d2bf93#32⟩ && t.sc == 45#6) = true := by decide +kernel
theorem test_stepR3_13 : nextIs (exec .stepR3_13 (inCompression 45#6 ⟨0xe7859cd3#32, 0xc52f5aff#32, 0x95207d6e#32, 0x92d2bf93#32⟩))
    (fun t => t.work == ⟨0xe7859cd3#32, 0xc52f5aff#32, 0x95207d6e#32, 0xcb2745d0#32⟩ && t.sc == 46#6) = true := by decide +kernel
theorem test_stepR3_14 : nextIs (exec .stepR3_14 (inCompression 46#6 ⟨0xe7859cd3#32, 0xc52f5aff#32, 0x95207d6e#32, 0xcb2745d0#32⟩))
    (fun t => t.work == ⟨0xe7859cd3#32, 0xc52f5aff#32, 0x30513865#32, 0xcb2745d0#32⟩ && t.sc == 47#6) = true := by decide +kernel
theorem test_stepR3_15 : nextIs (exec .stepR3_15 (inCompression 47#6 ⟨0xe7859cd3#32, 0xc52f5aff#32, 0x30513865#32, 0xcb2745d0#32⟩))
    (fun t => t.work == ⟨0xe7859cd3#32, 0xb2a1481d#32, 0x30513865#32, 0xcb2745d0#32⟩ && t.sc == 48#6) = true := by decide +kernel
theorem test_feedforward : nextIs (exec .feedforward (inCompression 48#6 ⟨0xe7859cd3#32, 0xb2a1481d#32, 0x30513865#32, 0xcb2745d0#32⟩))
    (fun t => t.S == #v[0x4ecabfd4#32, 0xa26ef3a6#32, 0xc90c1563#32, 0xdb599a46#32] && t.sc == 0#6 && !t.compressing) = true := by decide +kernel

/-! ## V-C3 (its first row is V-C1): the compression of the empty message's block, row by row through `step` -/

theorem test_vC3_round1 : stepsThrough 0 [
    ⟨0x67452301#32, 0xefcdab89#32, 0x98badcfe#32, 0x10325476#32⟩,
    ⟨0x000003f8#32, 0xefcdab89#32, 0x98badcfe#32, 0x10325476#32⟩,
    ⟨0x000003f8#32, 0xefcdab89#32, 0x98badcfe#32, 0x769a0254#32⟩,
    ⟨0x000003f8#32, 0xefcdab89#32, 0x0446b910#32, 0x769a0254#32⟩,
    ⟨0x000003f8#32, 0x740f9e7d#32, 0x0446b910#32, 0x769a0254#32⟩,
    ⟨0x34b4e040#32, 0x740f9e7d#32, 0x0446b910#32, 0x769a0254#32⟩,
    ⟨0x34b4e040#32, 0x740f9e7d#32, 0x0446b910#32, 0x704dd255#32⟩,
    ⟨0x34b4e040#32, 0x740f9e7d#32, 0x6c2bc1c2#32, 0x704dd255#32⟩,
    ⟨0x34b4e040#32, 0xf5ef256b#32, 0x6c2bc1c2#32, 0x704dd255#32⟩,
    ⟨0xc7059cb4#32, 0xf5ef256b#32, 0x6c2bc1c2#32, 0x704dd255#32⟩,
    ⟨0xc7059cb4#32, 0xf5ef256b#32, 0x6c2bc1c2#32, 0xbe8bdbae#32⟩,
    ⟨0xc7059cb4#32, 0xf5ef256b#32, 0x8bf5399c#32, 0xbe8bdbae#32⟩,
    ⟨0xc7059cb4#32, 0x18be2386#32, 0x8bf5399c#32, 0xbe8bdbae#32⟩,
    ⟨0xaddcb303#32, 0x18be2386#32, 0x8bf5399c#32, 0xbe8bdbae#32⟩,
    ⟨0xaddcb303#32, 0x18be2386#32, 0x8bf5399c#32, 0xa483a664#32⟩,
    ⟨0xaddcb303#32, 0x18be2386#32, 0x8ee8f245#32, 0xa483a664#32⟩,
    ⟨0xaddcb303#32, 0x3665f296#32, 0x8ee8f245#32, 0xa483a664#32⟩] = true := by decide +kernel
theorem test_vC3_round2 : stepsThrough 16 [
    ⟨0xaddcb303#32, 0x3665f296#32, 0x8ee8f245#32, 0xa483a664#32⟩,
    ⟨0x7a08fb05#32, 0x3665f296#32, 0x8ee8f245#32, 0xa483a664#32⟩,
    ⟨0x7a08fb05#32, 0x3665f296#32, 0x8ee8f245#32, 0xade24047#32⟩,
    ⟨0x7a08fb05#32, 0x3665f296#32, 0x98bbca4f#32, 0xade24047#32⟩,
    ⟨0x7a08fb05#32, 0x66cec932#32, 0x98bbca4f#32, 0xade24047#32⟩,
    ⟨0x0bb1e72c#32, 0x66cec932#32, 0x98bbca4f#32, 0xade24047#32⟩,
    ⟨0x0bb1e72c#32, 0x66cec932#32, 0x98bbca4f#32, 0x6410a1c2#32⟩,
    ⟨0x0bb1e72c#32, 0x66cec932#32, 0x9e4a14b3#32, 0x6410a1c2#32⟩,
    ⟨0x0bb1e72c#32, 0x3d0db9ec#32, 0x9e4a14b3#32, 0x6410a1c2#32⟩,
    ⟨0x11e8953d#32, 0x3d0db9ec#32, 0x9e4a14b3#32, 0x6410a1c2#32⟩,
    ⟨0x11e8953d#32, 0x3d0db9ec#32, 0x9e4a14b3#32, 0x7b76231b#32⟩,
    ⟨0x11e8953d#32, 0x3d0db9ec#32, 0x727f1264#32, 0x7b76231b#32⟩,
    ⟨0x11e8953d#32, 0xc8d84161#32, 0x727f1264#32, 0x7b76231b#32⟩,
    ⟨0x374891bf#32, 0xc8d84161#32, 0x727f1264#32, 0x7b76231b#32⟩,
    ⟨0x374891bf#32, 0xc8d84161#32, 0x727f1264#32, 0x0a15c329#32⟩,
    ⟨0x374891bf#32, 0xc8d84161#32, 0xb49a4dae#32, 0x0a15c329#32⟩,
    ⟨0x374891bf#32, 0x6f952b2e#32, 0xb49a4dae#32, 0x0a15c329#32⟩] = true := by decide +kernel
theorem test_vC3_round3 : stepsThrough 32 [
    ⟨0x374891bf#32, 0x6f952b2e#32, 0xb49a4dae#32, 0x0a15c329#32⟩,
    ⟨0xb9e91c4b#32, 0x6f952b2e#32, 0xb49a4dae#32, 0x0a15c329#32⟩,
    ⟨0xb9e91c4b#32, 0x6f952b2e#32, 0xb49a4dae#32, 0xac532bb7#32⟩,
    ⟨0xb9e91c4b#32, 0x6f952b2e#32, 0x1ab10ced#32, 0xac532bb7#32⟩,
    ⟨0xb9e91c4b#32, 0x28f076bd#32, 0x1ab10ced#32, 0xac532bb7#32⟩,
    ⟨0x36aace9e#32, 0x28f076bd#32, 0x1ab10ced#32, 0xac532bb7#32⟩,
    ⟨0x36aace9e#32, 0x28f076bd#32, 0x1ab10ced#32, 0x31984c40#32⟩,
    ⟨0x36aace9e#32, 0x28f076bd#32, 0x6f678dca#32, 0x31984c40#32⟩,
    ⟨0x36aace9e#32, 0xb8b9000f#32, 0x6f678dca#32, 0x31984c40#32⟩,
    ⟨0x5e5bde24#32, 0xb8b9000f#32, 0x6f678dca#32, 0x31984c40#32⟩,
    ⟨0x5e5bde24#32, 0xb8b9000f#32, 0x6f678dca#32, 0xef178453#32⟩,
    ⟨0x5e5bde24#32, 0xb8b9000f#32, 0xb69f1f41#32, 0xef178453#32⟩,
    ⟨0x5e5bde24#32, 0x187317b3#32, 0xb69f1f41#32, 0xef178453#32⟩,
    ⟨0x798ab330#32, 0x187317b3#32, 0xb69f1f41#32, 0xef178453#32⟩,
    ⟨0x798ab330#32, 0x187317b3#32, 0xb69f1f41#32, 0xb0576c6a#32⟩,
    ⟨0x798ab330#32, 0x187317b3#32, 0x3e9e5fb9#32, 0xb0576c6a#32⟩,
    ⟨0x798ab330#32, 0x421bbf48#32, 0x3e9e5fb9#32, 0xb0576c6a#32⟩] = true := by decide +kernel
/-- V-C2, and the last row of V-C3. -/
theorem test_vC2 : nextIs (step (inEmptyBlock 48#6 ⟨0x798ab330#32, 0x421bbf48#32, 0x3e9e5fb9#32, 0xb0576c6a#32⟩))
    (fun t => t.S == #v[0xe0cfd631#32, 0x31e96ad1#32, 0xd7593cb7#32, 0xc089c0e0#32] && t.sc == 0#6) = true := by decide +kernel
/-- V-C4. -/
theorem test_vC4 : compressWords initialState (listByte ([0x61#8, 0x62#8, 0x63#8, 0x80#8] ++ List.replicate 52 0x00#8 ++
    [0x18#8] ++ List.replicate 7 0x00#8)) 0 = #v[0x7a0148a4#32, 0x52d821af#32, 0xe80ac15f#32, 0x9d72a67a#32] := by
  decide +kernel

/-! ## 95_test_vectors.md 2.1 and 2.2: the codec, the round functions, rotation -/

theorem test_vW1 : encode32 0x67452301#32 = [0x01#8, 0x23#8, 0x45#8, 0x67#8] := by decide
theorem test_vW2 : le32 0x61#8 0x62#8 0x63#8 0x80#8 = 0x80636261#32 := by decide
theorem test_vW3 : decodeWords (listByte [0x00#8, 0x11#8, 0x22#8, 0x33#8, 0x44#8, 0x55#8, 0x66#8, 0x77#8, 0x88#8, 0x99#8]) 1 2 =
    #v[0x44332211#32, 0x88776655#32] := by decide +kernel
theorem test_vW4 : encodeWords initialState.toList = [0x01#8, 0x23#8, 0x45#8, 0x67#8, 0x89#8, 0xab#8, 0xcd#8, 0xef#8,
    0xfe#8, 0xdc#8, 0xba#8, 0x98#8, 0x76#8, 0x54#8, 0x32#8, 0x10#8] := by decide
theorem test_vW6 : ({ State.reset with countLo := 24#32 } : State).lengthField =
    [0x18#8, 0x00#8, 0x00#8, 0x00#8, 0x00#8, 0x00#8, 0x00#8, 0x00#8] := by decide
theorem test_vF3 : roundF 0xf0f0f0f0#32 0xff00ff00#32 0x0ff00ff0#32 = 0xff00ff00#32 ∧
    roundG 0xf0f0f0f0#32 0xff00ff00#32 0x0ff00ff0#32 = 0xfff0fff0#32 ∧
    roundH 0xf0f0f0f0#32 0xff00ff00#32 0x0ff00ff0#32 = 0x00000000#32 := by decide
theorem test_vF4 : roundF 0xffff0000#32 0x12345678#32 0x9abcdef0#32 = 0x1234def0#32 ∧
    roundG 0xffff0000#32 0x12345678#32 0x9abcdef0#32 = 0x9abc5670#32 ∧
    roundH 0xffff0000#32 0x12345678#32 0x9abcdef0#32 = 0x77778888#32 := by decide
theorem test_vR2 : rotl32 0x12345678#32 19 = 0xb3c091a2#32 := by decide
theorem test_vR8 : rotl32 0xdeadbeef#32 5 = 0xd5b7ddfb#32 := by decide

/-! ## 2.4 INIT -/

/-- V-I2. -/
theorem test_vI2 : nextIs (exec .init { State.reset with
      phase := .updating, countLo := 24#32, pendingLen := 3, buf := (Vector.replicate 64 0x00#8).set 0 0x61#8, digest := Vector.replicate 16 0xff#8 })
    (fun t => t.S == initialState && t.bitCount == 0#64 && t.pendingLen == 0 && t.buf == Vector.replicate 64 0x00#8 &&
      t.digest == Vector.replicate 16 0x00#8 && t.status == 0x00000000#32) = true := by decide +kernel
/-- V-I4. -/
theorem test_vI4 : nextIs (exec .init (faulted [])) (fun t => t.rsp == some ⟨.refused, none⟩ && t.status == 0x00000003#32) =
    true := by decide +kernel

/-! ## 2.5 UPDATE -/

/-- V-U3. -/
theorem test_vU3 : nextIs (exec (.update 6 0) (withSource (ascending 5)))
    (fun t => t.rsp == some ⟨.boundsFault, none⟩ && t.status == 0x00000003#32 && t.countLo == 0#32) = true := by decide +kernel
/-- V-U6. -/
theorem test_vU6 : nextIs (exec (.update 0 200) (withSource (ascending 200)))
    (fun t => t.S == #v[0x320c9cca#32, 0xc5a25e7d#32, 0xd8cd6da9#32, 0xf1ba2dd7#32] && t.pendingLen == 8 &&
      t.bitCount == 1600#64 && (t.buf.toList.take 10 == [0xc0#8, 0xc1#8, 0xc2#8, 0xc3#8, 0xc4#8, 0xc5#8, 0xc6#8, 0xc7#8,
        0x08#8, 0x09#8]) && t.status == 0x00000008#32) = true := by decide +kernel
/-- V-U8 and V-U9. -/
theorem test_vU8_vU9 :
    (addBitCount 1 { State.reset with countLo := 0xfffffff8#32 }).bitCount = 0x0000000100000000#64 ∧
    (addBitCount 1 { State.reset with countLo := 0xfffffff8#32, countHi := 0xffffffff#32 }).bitCount = 0#64 := by
  decide +kernel
/-- V-U10. -/
theorem test_vU10 : (addBitCount 0xffffffff State.reset).bitCount = 0x00000007fffffff8#64 := by decide +kernel

/-! ## 2.6 and 1. FINALIZE and whole messages -/

/-- V-P3. -/
theorem test_vP3 : digestOf (List.replicate 55 0x61#8) =
    [0xc8#8, 0x89#8, 0xc8#8, 0x1d#8, 0xd8#8, 0x6c#8, 0x4d#8, 0x2e#8, 0x02#8, 0x57#8, 0x78#8, 0x94#8, 0x4e#8, 0xa0#8, 0x28#8, 0x81#8] := by
  decide +kernel
/-- V-P4. -/
theorem test_vP4 : digestOf (List.replicate 56 0x61#8) =
    [0xd5#8, 0xf9#8, 0xa9#8, 0xe9#8, 0x25#8, 0x70#8, 0x77#8, 0xa5#8, 0xf0#8, 0x8b#8, 0x0b#8, 0x92#8, 0xf3#8, 0x48#8, 0xb0#8, 0xad#8] := by
  decide +kernel
/-- V-M5. -/
theorem test_vM5 : digestOf (ascending 200) =
    [0xf1#8, 0xa9#8, 0x7b#8, 0x5f#8, 0xf1#8, 0x91#8, 0xd1#8, 0xfe#8, 0x9e#8, 0x57#8, 0x0c#8, 0x52#8, 0x9a#8, 0xbf#8, 0x13#8, 0xb3#8] := by
  decide +kernel

/-! ## 2.7 Faults and status -/

/-- V-E3. -/
theorem test_vE3 : nextIs (step (withWords [0x00000101#32, 0x00000001#32])) (fun t => t.rsp == some ⟨.illegalCommand, none⟩ &&
    t.status == 0x00000005#32 && t.inbox == [.word 0x00000001#32]) = true := by decide +kernel
/-- V-E5: the window reaches one byte past SRC. -/
theorem test_vE5 : nextIs (step { withSource (ascending 3) with
      phase := .updating, inbox := [.word 0x00000002#32, .word 0x00000002#32, .word 0x00000002#32] })
    (fun t => t.rsp == some ⟨.boundsFault, none⟩ && t.status == 0x0000000b#32 && t.inbox == []) = true := by decide +kernel
/-- V-E7. -/
theorem test_vE7 : nextIs (step (faulted [0x00000007#32])) (fun t => t.rsp == some ⟨.refused, none⟩ && t.cause == .bounds) =
    true := by decide +kernel
/-- V-E8. -/
theorem test_vE8 : nextIs (step { faulted [] with inbox := [.rst], rx := [0x00000002#32] })
    (fun t => t.rsp == none && t.status == 0x00000000#32 && t == { State.reset with inbox := [] }) = true := by decide +kernel

/-! ## Placing one instruction -/

theorem test_withFetchWord_update : nextIs (step (State.reset.withFetchWord 32 0x00000002))
    (fun t => t.phase == .updating && t.inbox == []) = true := by decide +kernel
theorem test_withFetchWord_micro : nextIs (step (State.reset.withFetchWord 8 0x10)) (fun t => t.sc == 17#6) = true := by
  decide +kernel

/-! ## The assembler: 30_encoding.md R89, R90 -/

/-- The example of R90. -/
theorem test_assemble_update :
    parseProgram [['u', 'p', 'D', 'A', 'T', 'E', ' ', '0', ',', ' ', '0', 'x', '3', ';', 'z'], [' ', ';']] =
      some [.update 0 3] ∧
    assemble 0 [.update 0 3] = [.word 0x00000002#32, .word 0x00000000#32, .word 0x00000003#32] := by decide +kernel
theorem test_assemble_source :
    parseLine ['.', 's', 'r', 'c', ' ', 'h', 'e', 'x', ':', '0', '0', 'f', 'F'] = some (.src [0x00#8, 0xff#8]) ∧
    parseLine ['.', 's', 'r', 'c', ' ', '"', 'a', 'b', '"'] = some (.src [0x61#8, 0x62#8]) := by decide +kernel

/-! ## Witnesses: for each statement with hypotheses, states and operands that meet them, each clause at the edge of its range -/

/-- A context that has been fed the one byte 0x61, with n bytes of SRC presented. -/
def fedOneByte (n : Nat) : State :=
  { withSource (ascending n) with
    phase := .updating, countLo := 8#32, pendingLen := 1, buf := (Vector.replicate 64 0x00#8).set 0 0x61#8 }

/-- A fresh machine with n bytes of SRC and p bytes counted as pending. -/
def withPending (p : Fin 64) (n : Nat) : State :=
  { withSource (ascending n) with countLo := BitVec.ofNat 32 (8 * p.val), pendingLen := p }

theorem withPending_lengthOk_55 : (withPending 55 0).lengthOk := by unfold State.lengthOk; decide
theorem withPending_lengthOk_56 : (withPending 56 0).lengthOk := by unfold State.lengthOk; decide

theorem fedOneByte_fed (n : Nat) : (fedOneByte n).Fed [0x61#8] := by
  refine ⟨?_, ?_, ?_, ?_⟩
  · rfl
  · show (0#32 ++ 8#32 : BitVec 64) = _
    decide
  · rfl
  · show List.take 1 ((Vector.replicate 64 0x00#8).set 0 0x61#8).toList = _
    decide

/-- A machine that meets the invariant, with an UPDATE, an INIT and a reset at its inputs. -/
def busy : State :=
  { withSource (ascending 3) with
    inbox := [.word 0x00000002#32, .word 0x00000000#32, .word 0x00000003#32, .word 0x00000001#32, .rst] }

theorem busy_inv : busy.Inv where
  sequencer := rfl
  length := by unfold State.lengthOk; decide
  fault := by simp [State.faultOk, busy, withSource, presentSource, State.reset]
  source := ⟨by decide +kernel, by decide +kernel, by decide +kernel⟩
  reception := rfl
  response := fun r h => by cases h

/-- A running compression at the feed-forward meets the invariant too. -/
theorem atFeedForward_inv : ({ State.reset with compressing := true, sc := 48#6 } : State).Inv where
  sequencer := by simp [State.sequencerOk]
  length := by unfold State.lengthOk; decide
  fault := by simp [State.faultOk, State.reset]
  source := ⟨by decide, by decide, by decide⟩
  reception := rfl
  response := fun r h => by cases h

/-- A context that has been fed the one byte 0x61 and has 3 bytes of SRC, with these inputs and FAULT. -/
def withInbox (evs : List HostEvent) (fault : Bool) : State := { fedOneByte 3 with inbox := evs, fault := fault }

theorem witness_DecodeInvertsEncode :
    (Instr.update 0 0xffffffff).wf = true ∧ commandWords (.update 0 0xffffffff) ≠ [] ∧ Instr.feedforward.wf = true ∧
      commandWords .init ≠ [] := by decide

theorem witness_CommandWordsDetermineTheCommand :
    decodeCommand [0x00000002#32, 0xffffffff#32, 0x00000000#32, 0x00000007#32] =
      .command (.update 0xffffffff 0) [0x00000007#32] := by decide

theorem witness_CommandLengthFromHeader :
    ([0#32].length + 1 < commandLength 0x00000002#32) ∧ (commandLength 0x00000002#32 ≤ [0#32, 0#32].length + 1) ∧
    (commandLength 0x00000100#32 ≤ ([] : List Word).length + 1) ∧ decodeCommand [0x00000100#32] = .illegal .reservedBits [] ∧
    decodeCommand [0x000000ff#32] = .illegal (.reservedOpcode 0xff#8) [] := by decide

theorem witness_StepCounterSelectsFortyNineOperations :
    decodeMicro 48#6 = some .feedforward ∧ decodeMicro 49#6 = none ∧
    ∃ s : State, s.compressing = true ∧ 48 < s.sc.toNat :=
  ⟨by decide, by decide, { State.reset with compressing := true, sc := 49#6 }, rfl, by decide⟩

theorem witness_StepRunsDecodedCommand :
    (busy.compressing = false ∧ busy.receptionOk ∧ busy.inbox =
      [0x00000002#32, 0x00000000#32, 0x00000003#32].map .word ++ [.word 0x00000001#32, .rst] ∧
      decodeCommand (busy.rx ++ [0x00000002#32, 0x00000000#32, 0x00000003#32]) = .command (.update 0 3) []) ∧
    ∃ s : State, s.compressing = false ∧ s.receptionOk ∧ s.rx = [0x00000002#32, 0x00000000#32] ∧
      s.inbox = [0x00000003#32].map .word ++ [] ∧ decodeCommand (s.rx ++ [0x00000003#32]) = .command (.update 0 3) [] :=
  ⟨⟨rfl, rfl, rfl, rfl⟩, { withWords [0x00000003#32] with rx := [0x00000002#32, 0x00000000#32] }, rfl, rfl, rfl, rfl, rfl⟩

theorem witness_StepRunsSelectedMicroOperation : ∃ s : State, s.compressing = true ∧ decodeMicro s.sc = some .feedforward :=
  ⟨{ State.reset with compressing := true, sc := 48#6 }, rfl, rfl⟩

theorem witness_PartlyReceivedCommandWaits :
    (∃ (s : State) (evs : List HostEvent), s.compressing = false ∧
      s.inbox = [0x00000002#32, 0x00000000#32].map .word ++ evs ∧ (∀ w es, evs ≠ .word w :: es) ∧ s.receptionOk ∧
      decodeCommand (s.rx ++ [0x00000002#32, 0x00000000#32]) = .incomplete) ∧
    ∃ s : State, s.compressing = false ∧ s.inbox = [] :=
  ⟨⟨{ withWords [] with inbox := [.word 0x00000002#32, .word 0x00000000#32, .rst] }, [.rst], rfl, rfl,
    (fun _ _ h => by cases h), rfl, rfl⟩, State.reset, rfl, rfl⟩

/-- The largest window in range and the smallest out of range. -/
theorem witness_HostPresentsSource :
    ∃ (s : State) (largest big : List Byte), s.compressing = false ∧ s.inbox = [.src largest] ∧
      largest.length < 0x100000000 ∧ largest.length + 1 = 0x100000000 ∧
      ({ s with inbox := [.src big] } : State).compressing = false ∧ 0x100000000 ≤ big.length :=
  ⟨{ State.reset with inbox := [.src (List.replicate 0xffffffff 0x61#8)] }, List.replicate 0xffffffff 0x61#8,
    List.replicate 0x100000000 0x00#8, rfl, rfl, by rw [List.length_replicate]; decide, by rw [List.length_replicate], rfl,
    by rw [List.length_replicate]⟩

theorem witness_HardwareResetLeavesResetValues :
    ∃ s : State, s.compressing = false ∧ s.inbox = [.rst] ∧ s.rx ≠ [] ∧ s.fault = true :=
  ⟨{ faulted [] with inbox := [.rst], rx := [0x00000002#32] }, rfl, rfl, by decide, rfl⟩

theorem witness_ResetStateHasTheSpecValues : (fedOneByte 3).fault = false := rfl

theorem witness_StepKeepsInvariant : busy.Inv ∧ ∃ t, step busy = .next t :=
  ⟨busy_inv, _, rfl⟩

theorem witness_StepKeepsInvariant_micro : ∃ s t : State, s.Inv ∧ s.compressing = true ∧ step s = .next t :=
  ⟨_, _, atFeedForward_inv, rfl, rfl⟩

theorem witness_InvariantStatesNeverStick : busy.Inv ∧ ∀ e ∈ busy.inbox.head?, e.wf = true :=
  ⟨busy_inv, fun e h => by cases h; rfl⟩

theorem witness_InitResetsTheContext : (faulted []).fault = true ∧ (fedOneByte 3).fault = false := ⟨rfl, rfl⟩

theorem witness_InitAfterFinalizeOnlyClearsDigest : (fedOneByte 3).fault = false := rfl

theorem witness_IllegalHeaderRaisesIllegalCommand :
    ∀ h ∈ [0x00000000#32, 0x00000004#32, 0x000000ff#32, 0x00000101#32, 0x80000002#32],
      ∃ s : State, s.compressing = false ∧ s.rx = [] ∧ s.fault = false ∧ s.inbox = .word h :: [] ∧
        (h.toNat % 256 = 0x00 ∨ 0x04 ≤ h.toNat % 256 ∨ h.toNat / 256 ≠ 0) := by
  intro h hh
  refine ⟨withWords [h], rfl, rfl, rfl, rfl, ?_⟩
  simp only [List.mem_cons, List.not_mem_nil, or_false] at hh
  rcases hh with rfl | rfl | rfl | rfl | rfl <;> simp

theorem witness_UpdateBoundsFault : ∃ s : State, s.fault = false ∧ s.srcSize < 2 + 2 ∧ 2 + 1 ≤ s.srcSize :=
  ⟨withSource (ascending 3), rfl, by decide, by decide⟩

theorem witness_FaultedMachineRefusesCommands :
    ((faulted [0x00000002#32, 0x00000000#32, 0x00000000#32]).compressing = false ∧
      (faulted [0x00000002#32, 0x00000000#32, 0x00000000#32]).rx = [] ∧
      (faulted [0x00000002#32, 0x00000000#32, 0x00000000#32]).fault = true ∧ (Instr.update 0 0).wf = true ∧
      commandWords (.update 0 0) ≠ [] ∧
      (faulted [0x00000002#32, 0x00000000#32, 0x00000000#32]).inbox = (commandWords (.update 0 0)).map .word ++ []) ∧
    ((faulted [0x00000007#32]).compressing = false ∧ (faulted [0x00000007#32]).rx = [] ∧
      (faulted [0x00000007#32]).fault = true ∧ decodeCommand [0x00000007#32] = .illegal (.reservedOpcode 0x07#8) [] ∧
      (faulted [0x00000007#32]).inbox = .word 0x00000007#32 :: []) := by decide

theorem witness_OnlyHardwareResetClearsFault :
    ((faulted [0x00000001#32]).fault = true ∧ ∃ t, step (faulted [0x00000001#32]) = .next t) ∧
    ∃ s t : State, s.fault = true ∧ s.inbox.head? = some .rst ∧ step s = .next t ∧ t.fault = false :=
  ⟨⟨rfl, _, rfl⟩, { faulted [] with inbox := [.rst] }, _, rfl, rfl, rfl, rfl⟩

theorem witness_FaultsArePrecise :
    (∃ t, (withWords [0x00000000#32]).fault = false ∧ step (withWords [0x00000000#32]) = .next t ∧ t.fault = true) ∧
    ∃ t, (withWords [0x00000002#32, 0x00000001#32, 0x00000000#32]).fault = false ∧
      step (withWords [0x00000002#32, 0x00000001#32, 0x00000000#32]) = .next t ∧ t.fault = true ∧ t.cause = .bounds :=
  ⟨⟨_, rfl, rfl, rfl⟩, _, rfl, rfl, rfl, rfl⟩

theorem witness_UpdateAbsorbsTheWindow : (fedOneByte 63).fault = false ∧ 0 + 63 ≤ (fedOneByte 63).srcSize :=
  ⟨rfl, by decide⟩

theorem witness_UpdateCountsBits :
    (fedOneByte 3).fault = false ∧ 3 < 0x100000000 ∧ 0 + 3 ≤ (fedOneByte 3).srcSize ∧
    ∃ s : State, s.fault = false ∧ 0xffffffff < 0x100000000 ∧ 0 + 0xffffffff ≤ s.srcSize :=
  ⟨rfl, by decide, by decide, { State.reset with srcSize := 0xffffffff }, rfl, by decide, by decide⟩

/-- Both paths, one byte apart. -/
theorem witness_UpdateWritesTheBuffer :
    ((fedOneByte 63).fault = false ∧ 0 + 62 ≤ (fedOneByte 63).srcSize ∧ (fedOneByte 63).pendingLen.val + 62 < 64 ∧
      ∃ t, exec (.update 0 62) (fedOneByte 63) = .next t) ∧
    (0 + 63 ≤ (fedOneByte 63).srcSize ∧ 64 ≤ (fedOneByte 63).pendingLen.val + 63 ∧
      ∃ t, exec (.update 0 63) (fedOneByte 63) = .next t) :=
  ⟨⟨rfl, by decide, by decide, exists_next (by decide +kernel)⟩, by decide, by decide, exists_next (by decide +kernel)⟩

theorem witness_UpdateLeavesTheLastBlockInX :
    ((fedOneByte 63).fault = false ∧ 0 + 62 ≤ (fedOneByte 63).srcSize ∧ (fedOneByte 63).pendingLen.val + 62 < 64 ∧
      ∃ t, exec (.update 0 62) (fedOneByte 63) = .next t) ∧
    (0 + 63 ≤ (fedOneByte 63).srcSize ∧ 64 ≤ (fedOneByte 63).pendingLen.val + 63 ∧
      ∃ t, exec (.update 0 63) (fedOneByte 63) = .next t) := witness_UpdateWritesTheBuffer

/-- The three answers of UPDATE. -/
theorem witness_UpdateFrame :
    nextIs (exec (.update 0 3) (fedOneByte 3)) (fun t => t.rsp == some ⟨.ok, none⟩) = true ∧
    nextIs (exec (.update 0 4) (fedOneByte 3)) (fun t => t.rsp == some ⟨.boundsFault, none⟩) = true ∧
    nextIs (exec (.update 0 3) (faulted [])) (fun t => t.rsp == some ⟨.refused, none⟩) = true := by decide +kernel

theorem witness_ZeroLengthUpdate :
    (fedOneByte 3).fault = false ∧ 3 ≤ (fedOneByte 3).srcSize ∧ 0 ≤ (fedOneByte 3).srcSize := ⟨rfl, by decide, by decide⟩

/-- Two sources that differ below and above the window, and agree at its ends. -/
theorem witness_UpdateReadsOnlyItsWindow :
    (∀ j, 1 ≤ j → j < 1 + 2 → (Memory.ofBytes [0x01#8, 0x02#8, 0x03#8, 0x04#8]).read j =
      (Memory.ofBytes [0xff#8, 0x02#8, 0x03#8, 0xff#8]).read j) ∧
    (withSource [0x01#8, 0x02#8, 0x03#8, 0x04#8]).srcMem = Memory.ofBytes [0x01#8, 0x02#8, 0x03#8, 0x04#8] ∧
    Memory.ofBytes [0x01#8, 0x02#8, 0x03#8, 0x04#8] ≠ Memory.ofBytes [0xff#8, 0x02#8, 0x03#8, 0xff#8] := by
  refine ⟨fun j h1 h2 => ?_, rfl, by decide⟩
  obtain rfl | rfl : j = 1 ∨ j = 2 := by omega
  all_goals decide

theorem witness_ChunkingInvariance :
    (fedOneByte 200).fault = false ∧ 0 + [1, 7, 63, 64, 65].sum ≤ (fedOneByte 200).srcSize := ⟨rfl, by decide +kernel⟩

theorem witness_FinalizeDeliversTheDigest : (faulted []).fault = true ∧ (fedOneByte 3).fault = false := ⟨rfl, rfl⟩

/-- Both sides of the padding branch. -/
theorem witness_PaddingLeavesFiftySixPending :
    ((withPending 55 0).lengthOk ∧ (withPending 55 0).bytePosition < 56) ∧
    ((withPending 56 0).lengthOk ∧ 56 ≤ (withPending 56 0).bytePosition) ∧ (State.reset.lengthField).length = 8 :=
  ⟨⟨withPending_lengthOk_55, by decide⟩, ⟨withPending_lengthOk_56, by decide⟩, rfl⟩

theorem witness_FreshContextIsFedNothing : (fedOneByte 3).fault = false := rfl

/-- One state for each way a step treats the message, each with one byte fed before: UPDATE in bounds to the last byte, and
out of bounds by one; INIT; FINALIZE; a command refused; RST; a word that completes nothing. -/
theorem witness_EveryStepTracksTheMessage :
    ((fedOneByte 63).Fed [0x61#8] ∧ (fedOneByte 63).fault = false ∧ 0 + 63 ≤ (fedOneByte 63).srcSize) ∧
    ∀ c ∈ [([.word 0x00000002#32, .word 0x00000000#32, .word 0x00000003#32], false, [0x61#8, 0x00#8, 0x01#8, 0x02#8]),
        ([.word 0x00000002#32, .word 0x00000001#32, .word 0x00000003#32], false, [0x61#8]),
        ([.word 0x00000001#32], false, []), ([.word 0x00000003#32], false, []), ([.word 0x00000003#32], true, [0x61#8]),
        ([.rst], true, []), ([.word 0x00000002#32], false, [0x61#8])],
      (withInbox c.1 c.2.1).Fed [0x61#8] ∧ (withInbox c.1 c.2.1).compressing = false ∧
        (∃ t, step (withInbox c.1 c.2.1) = .next t) ∧ (withInbox c.1 c.2.1).messageAfter [0x61#8] = c.2.2 := by
  refine ⟨⟨fedOneByte_fed 63, rfl, by decide⟩, fun c hc => ⟨fedOneByte_fed 3, rfl, ?_, ?_⟩⟩ <;>
    simp only [List.mem_cons, List.not_mem_nil, or_false] at hc <;>
    rcases hc with rfl | rfl | rfl | rfl | rfl | rfl | rfl
  case refine_1.inl => exact exists_next (by decide +kernel)
  all_goals first
    | exact ⟨_, rfl⟩
    | decide +kernel

theorem witness_FinalizeComputesMd4 : (fedOneByte 0).Fed [0x61#8] ∧ (fedOneByte 0).fault = false :=
  ⟨fedOneByte_fed 0, rfl⟩

theorem witness_EmptyMessageDigest : (withSource (ascending 3)).Fed [] ∧ (withSource (ascending 3)).fault = false :=
  ⟨⟨rfl, rfl, rfl, rfl⟩, rfl⟩

theorem witness_StepTableFollowsTheSchedule : 0 < 48 ∧ 47 < 48 := by decide

theorem witness_StepCounterRunsInOrder :
    (∃ s : State, s.compressing = true ∧ s.sc.toNat < 48 ∧ s.sc = 47#6) ∧
    ∃ s : State, s.compressing = true ∧ s.sc = 48#6 :=
  ⟨⟨{ State.reset with compressing := true, sc := 47#6 }, rfl, by decide, rfl⟩,
    { State.reset with compressing := true, sc := 48#6 }, rfl, rfl⟩

theorem witness_RoundFunctionsBitByBit : 0 < 32 ∧ 31 < 32 ∧ 0 < 1 ∧ 1 < 32 ∧ 0 < 31 := by decide

theorem witness_CompressDependsOnItsBytesAlone :
    ∃ B B' : Nat → Byte, (∀ j, j < 64 → B (0 + j) = B' (5 + j)) ∧ B 0 ≠ B' 0 ∧ B 64 ≠ B' 69 := by
  refine ⟨fun j => if j < 64 then 0x61#8 else 0x62#8, fun j => if 5 ≤ j ∧ j < 69 then 0x61#8 else 0x63#8, ?_, by decide,
    by decide⟩
  intro j hj
  simp only [show 0 + j < 64 by omega, show 5 ≤ 5 + j ∧ 5 + j < 69 by omega, if_true]
  simp

theorem witness_OneResponsePerCommand :
    (∃ t, step busy = .next t ∧ receive busy.rx busy.inbox = .command (.update 0 3) [.word 0x00000001#32, .rst]) ∧
    (∃ t, step (withWords [0x00000000#32]) = .next t ∧
      receive (withWords [0x00000000#32]).rx (withWords [0x00000000#32]).inbox = .illegal []) ∧
    ∃ t, step State.reset = .next t := ⟨⟨_, rfl, rfl⟩, ⟨_, rfl, rfl⟩, _, rfl⟩

/-- By reset, by INIT and by FINALIZE. -/
theorem witness_DigestOnlyChangedByInitFinalizeReset :
    (∃ s t : State, s.inbox.head? = some .rst ∧ step s = .next t ∧ t.digest ≠ s.digest) ∧
    (∃ s t : State, s.inbox = [.word 0x00000001#32] ∧ step s = .next t ∧ t.digest ≠ s.digest) ∧
    (∃ s t : State, s.inbox = [.word 0x00000003#32] ∧ step s = .next t ∧ t.digest ≠ s.digest) := by
  refine ⟨⟨{ State.reset with inbox := [.rst], digest := Vector.replicate 16 0xff#8 }, ?_⟩,
    ⟨{ withWords [0x00000001#32] with digest := Vector.replicate 16 0xff#8 }, ?_⟩,
    ⟨withWords [0x00000003#32], ?_⟩⟩
  · obtain ⟨t, h, hd⟩ := exists_of_nextIs (o := step { State.reset with inbox := [.rst], digest := Vector.replicate 16 0xff#8 })
      (check := fun t => t.digest != Vector.replicate 16 0xff#8) (by decide +kernel)
    exact ⟨t, rfl, h, by simpa using hd⟩
  · obtain ⟨t, h, hd⟩ := exists_of_nextIs (o := step { withWords [0x00000001#32] with digest := Vector.replicate 16 0xff#8 })
      (check := fun t => t.digest != Vector.replicate 16 0xff#8) (by decide +kernel)
    exact ⟨t, rfl, h, by simpa using hd⟩
  · obtain ⟨t, h, hd⟩ := exists_of_nextIs (o := step (withWords [0x00000003#32]))
      (check := fun t => t.digest != (withWords [0x00000003#32]).digest) (by decide +kernel)
    exact ⟨t, rfl, h, by simpa using hd⟩

/-- By the feed-forward, by reset and by a command. -/
theorem witness_ChainingStateWrittenOnlyBy :
    (∃ s t : State, s.compressing = true ∧ step s = .next t ∧ t.S ≠ s.S) ∧
    (∃ s t : State, s.inbox.head? = some .rst ∧ step s = .next t ∧ t.countLo ≠ s.countLo) ∧
    (∃ s t : State, s.inbox.head? = some (.word 0x00000002#32) ∧ step s = .next t ∧ t.countLo ≠ s.countLo ∧
      t.pendingLen ≠ s.pendingLen ∧ t.buf ≠ s.buf) := by
  refine ⟨⟨inCompression 48#6 ⟨1#32, 0#32, 0#32, 0#32⟩, ?_⟩, ⟨{ fedOneByte 0 with inbox := [.rst] }, ?_⟩, ⟨busy, ?_⟩⟩
  · obtain ⟨t, h, hd⟩ := exists_of_nextIs (o := step (inCompression 48#6 ⟨1#32, 0#32, 0#32, 0#32⟩))
      (check := fun t => t.S != initialState) (by decide +kernel)
    exact ⟨t, rfl, h, by have : t.S ≠ initialState := by simpa using hd
                         exact this⟩
  · obtain ⟨t, h, hd⟩ := exists_of_nextIs (o := step { fedOneByte 0 with inbox := [.rst] })
      (check := fun t => t.countLo != 8#32) (by decide +kernel)
    exact ⟨t, rfl, h, by have : t.countLo ≠ 8#32 := by simpa using hd
                         exact this⟩
  · obtain ⟨t, h, hd⟩ := exists_of_nextIs (o := step busy)
      (check := fun t => t.countLo != busy.countLo && t.pendingLen != busy.pendingLen && t.buf != busy.buf) (by decide +kernel)
    refine ⟨t, rfl, h, ?_⟩
    simpa [and_assoc] using hd

theorem witness_SourceWrittenOnlyByHost :
    (∃ t, step busy = .next t) ∧ ∀ bytes, busy.compressing = false → busy.inbox.head? ≠ some (.src bytes) :=
  ⟨⟨_, rfl⟩, (fun _ _ h => by cases h)⟩

theorem witness_InstancesShareNothing :
    ∃ q, Platform.stepAt 1 ⟨[State.reset, busy, State.reset]⟩ = .next q := ⟨_, rfl⟩

end Sys2Proof.Machine
end

section
/-! SUPPORT. Facts the statements of 10_state.md share: the ports, what an illegal header and an UPDATE do by cases, and what
reception does not look past. -/

namespace Sys2Proof.Machine

/-- SRC reads the same where its cells are the same. -/
theorem srcByte_congr {s t : State} (h : t.srcMem = s.srcMem) (a : Nat) : t.srcByte a = s.srcByte a := by
  rw [State.srcByte, h, State.srcByte]

/-- R241, R238: an illegal header is refused, or it raises its fault. -/
theorem illegalCommand_cases (s : State) :
    illegalCommand s = refuse s ∨ illegalCommand s = raiseFault .illegal s := by
  unfold illegalCommand
  split
  · exact .inl rfl
  · exact .inr rfl

/-- R190: what an UPDATE answers, with the condition of each answer. -/
theorem exec_update_cases (s : State) (off len : Nat) :
    (s.fault = true ∧ exec (.update off len) s = .next (refuse s)) ∨
    (s.fault = false ∧ s.srcSize < off + len ∧ exec (.update off len) s = .next (raiseFault .bounds s)) ∨
    (s.fault = false ∧ off + len ≤ s.srcSize ∧
      exec (.update off len) s = .next (respond .ok { updateCore s.srcByte off len s with phase := .updating })) := by
  cases hf : s.fault with
  | true => exact .inl ⟨rfl, exec_refused hf (.inr (.inl ⟨off, len, rfl⟩))⟩
  | false =>
    rcases Nat.lt_or_ge s.srcSize (off + len) with hb | hb
    · exact .inr (.inl ⟨rfl, hb, exec_update_bounds hf hb⟩)
    · exact .inr (.inr ⟨rfl, hb, exec_update_ok hf hb⟩)

/-- R235: a command that a faulted machine takes leads to the refused state. -/
theorem eq_refuse_of_exec {s t : State} {i : Instr} (ht : exec i s = .next t)
    (hi : i = .init ∨ (∃ off len, i = .update off len) ∨ i = .finalize) (hf : s.fault = true) : t = refuse s := by
  rw [exec_refused hf hi] at ht
  cases ht
  rfl

/-- R83: reception does not look past an RST. -/
theorem receive_of_head_rst {rx : List Word} {inbox : List HostEvent} (h : inbox.head? = some .rst) :
    receive rx inbox = .waiting rx inbox := by
  obtain ⟨evs, rfl⟩ := List.head?_eq_some_iff.1 h
  rfl

/-- R211 to R213: what FINALIZE has absorbed when it reads the digest. -/
theorem feedLengthField_feedPadding_S (s : State) :
    (feedLengthField s.lengthField (feedPadding s)).S =
      absorb s.S (s.pending ++ padBytes (padLength s.bytePosition) ++ s.lengthField) := by
  rw [feedLengthField_S (lengthField_length s), feedPadding_S, feedPadding_pending, absorb_leftover]

end Sys2Proof.Machine
end

section
/-! SUPPORT. The invariant: each clause by the fields that decide it, each operation of a step keeps it, and so does a step. -/

namespace Sys2Proof.Machine

theorem sequencerOk_of_idle {s : State} (hc : s.compressing = false) (hsc : s.sc = 0#6) : s.sequencerOk := by
  simpa [State.sequencerOk, hc] using hsc

theorem sequencerOk_of_running {s : State} (hc : s.compressing = true) (hsc : s.sc.toNat ≤ 48) : s.sequencerOk := by
  simpa [State.sequencerOk, hc] using hsc

theorem lengthOk_of_fresh {s : State} (hlen : s.pendingLen = 0) (hlo : s.countLo = 0#32) : s.lengthOk := by
  simp [State.lengthOk, bytePosition_eq, hlen, hlo]

theorem responseOk_of_none {s : State} (h : s.rsp = none) : s.responseOk := by
  simp [State.responseOk, h]

theorem responseOk_of_code {s : State} {code : RspCode} (h : s.rsp = some ⟨code, none⟩) : s.responseOk := by
  simp [State.responseOk, h]

theorem responseOk_of_digest {s : State} (h : s.rsp = some ⟨.ok, some s.digest⟩) : s.responseOk := by
  simp [State.responseOk, h]

/-- UPDATE_CORE leaves the sequencer as it is, or at rest after its last compression. -/
theorem updateCore_sequencerOk (B : Nat → Byte) (o n : Nat) (s : State) (h : s.sequencerOk) :
    (updateCore B o n s).sequencerOk := by
  unfold State.sequencerOk
  rw [updateCore_sc, updateCore_compressing]
  split
  · exact h
  · rfl

/-- R74: taking words off the inputs keeps the invariant, where what stays received is the beginning of a command. -/
theorem State.Inv.receive {s : State} (h : s.Inv) {rx : List Word} (hrx : decodeCommand rx = .incomplete)
    (evs : List HostEvent) : (clearResponse { s with rx := rx, inbox := evs }).Inv where
  sequencer := h.sequencer
  length := h.length
  fault := h.fault
  source := h.source
  reception := hrx
  response := responseOk_of_none rfl

/-- R117, R171: a step of a compression below 48 keeps the invariant. -/
theorem State.Inv.microStep {s : State} (h : s.Inv) (hc : s.compressing = true) (hsc : s.sc.toNat < 48) (w : Working) :
    ({ clearResponse s with work := w, sc := BitVec.ofNat 6 (s.sc.toNat + 1) } : State).Inv where
  sequencer := sequencerOk_of_running hc (by simp only [BitVec.toNat_ofNat]; omega)
  length := h.length
  fault := h.fault
  source := h.source
  reception := h.reception
  response := responseOk_of_none rfl

/-- R170, R171: the end of a compression keeps the invariant. -/
theorem State.Inv.feedForward {s : State} (h : s.Inv) : (feedForward (clearResponse s)).Inv where
  sequencer := sequencerOk_of_idle rfl rfl
  length := h.length
  fault := h.fault
  source := h.source
  reception := h.reception
  response := responseOk_of_none rfl

/-- R260: hardware reset keeps the invariant. -/
theorem State.Inv.hardwareReset {s : State} (h : s.Inv) (evs : List HostEvent) :
    (hardwareReset { s with inbox := evs }).Inv where
  sequencer := sequencerOk_of_idle rfl rfl
  length := lengthOk_of_fresh rfl rfl
  fault := by simp [State.faultOk]
  source := h.source
  reception := rfl
  response := responseOk_of_none rfl

/-- R50, R9: a source window in range keeps the invariant. -/
theorem State.Inv.presentSource {s : State} (h : s.Inv) (evs : List HostEvent) {bytes : List Byte}
    (hlen : bytes.length < 0x100000000) : (presentSource bytes (clearResponse { s with inbox := evs })).Inv where
  sequencer := h.sequencer
  length := h.length
  fault := h.fault
  source := ⟨Memory.wf_ofBytes bytes, Memory.within_ofBytes bytes, hlen⟩
  reception := h.reception
  response := responseOk_of_none rfl

/-- R235: a refused command keeps the invariant. -/
theorem State.Inv.refuse {s : State} (h : s.Inv) : (refuse s).Inv where
  sequencer := h.sequencer
  length := h.length
  fault := h.fault
  source := h.source
  reception := h.reception
  response := responseOk_of_code rfl

/-- R233: entry of a fault that has a name keeps the invariant. -/
theorem State.Inv.raiseFault {s : State} (h : s.Inv) {cause : Cause} (hcause : cause ≠ .none) :
    (raiseFault cause s).Inv where
  sequencer := h.sequencer
  length := h.length
  fault := by simpa [State.faultOk] using hcause
  source := h.source
  reception := h.reception
  response := responseOk_of_code rfl

/-- R180: an INIT keeps the invariant. -/
theorem State.Inv.init {s : State} (h : s.Inv) :
    (respond .ok { clearDigest (contextReset s) with phase := .initialized }).Inv where
  sequencer := sequencerOk_of_idle rfl rfl
  length := lengthOk_of_fresh rfl rfl
  fault := h.fault
  source := h.source
  reception := h.reception
  response := responseOk_of_code rfl

/-- R190: an UPDATE in bounds keeps the invariant. -/
theorem State.Inv.update {s : State} (h : s.Inv) (B : Nat → Byte) (off len : Nat) :
    (respond .ok { updateCore B off len s with phase := .updating }).Inv where
  sequencer := updateCore_sequencerOk B off len s h.sequencer
  length := updateCore_lengthOk B off len s h.length
  fault := by simpa [State.faultOk] using h.fault
  source := by simpa [State.sourceOk] using h.source
  reception := by simpa [State.receptionOk] using h.reception
  response := responseOk_of_code rfl

/-- R210: a FINALIZE keeps the invariant. -/
theorem State.Inv.finalize {s : State} (h : s.Inv) : (respondDigest
    { contextReset (serializeDigest (feedLengthField s.lengthField (feedPadding s))) with phase := .initialized }).Inv where
  sequencer := sequencerOk_of_idle rfl rfl
  length := lengthOk_of_fresh rfl rfl
  fault := by simpa [State.faultOk] using h.fault
  source := by simpa [State.sourceOk] using h.source
  reception := by simpa [State.receptionOk] using h.reception
  response := responseOk_of_digest rfl

/-- R241: an illegal header keeps the invariant. -/
theorem State.Inv.illegalCommand {s : State} (h : s.Inv) : (illegalCommand s).Inv := by
  rcases illegalCommand_cases s with e | e <;> rw [e]
  · exact h.refuse
  · exact h.raiseFault (by decide)

/-- The three commands keep the invariant, whatever they answer. -/
theorem State.Inv.exec_command {s t : State} {i : Instr} (h : s.Inv)
    (hi : i = .init ∨ (∃ off len, i = .update off len) ∨ i = .finalize) (ht : exec i s = .next t) : t.Inv := by
  obtain ⟨-, rfl⟩ | ⟨-, -, rfl⟩ | ⟨-, off, len, -, rfl | rfl⟩ | ⟨-, -, rfl⟩ := exec_command_cases hi ht
  · exact h.refuse
  · exact h.init
  · exact h.raiseFault (by decide)
  · exact h.update s.srcByte off len
  · exact h.finalize

/-- A micro-operation selected by SC keeps the invariant. -/
theorem State.Inv.exec_micro {s t : State} {i : Instr} (h : s.Inv) (hc : s.compressing = true)
    (hi : decodeMicro s.sc = some i) (ht : exec i (clearResponse s) = .next t) : t.Inv := by
  obtain ⟨hsc, w, hw⟩ | ⟨-, rfl⟩ := decodeMicro_exec hi
  · rw [hw] at ht
    cases ht
    exact h.microStep hc hsc _
  · cases ht
    exact h.feedForward

/-- Settles O13: each way a step reaches a next state keeps each clause of the invariant. -/
theorem stepKeepsInvariant : Obligations.StepKeepsInvariant := by
  intro s t h hstep
  cases step_cases hstep with
  | micro i hc hi ht => exact h.exec_micro hc hi ht
  | idle _ _ ht => subst ht; exact h.receive h.reception s.inbox
  | reset evs _ _ ht => subst ht; exact h.hardwareReset evs
  | source bytes evs _ _ hlen ht => subst ht; exact h.presentSource evs hlen
  | command i evs _ hr ht => exact (h.receive rfl evs).exec_command (receive_command hr) ht
  | illegal evs _ _ ht => subst ht; exact (h.receive rfl evs).illegalCommand
  | waiting rx evs _ _ hr ht => subst ht; exact h.receive (receive_waiting h.reception hr) evs

end Sys2Proof.Machine
end

section
/-! SUPPORT. The message a context has been fed (10_state.md R24): what it fixes in the bit count, the digest FINALIZE makes
of it, and how each way a step goes changes it. -/

namespace Sys2Proof.Machine

/-- R21: the halves of the bit count of a context that has been fed M. -/
theorem State.Fed.count {s : State} {M : List Byte} (h : s.Fed M) :
    s.countLo = BitVec.ofNat 32 (8 * M.length) ∧ s.countHi = BitVec.ofNat 32 (8 * M.length / 0x100000000) := by
  obtain ⟨-, hcount, -, -⟩ := h
  have hnat := congrArg BitVec.toNat hcount
  rw [bitCount_toNat, BitVec.toNat_ofNat] at hnat
  have hlo := s.countLo.isLt
  have hhi := s.countHi.isLt
  constructor <;> apply BitVec.eq_of_toNat_eq <;> rw [BitVec.toNat_ofNat] <;> omega

/-- R212: r of a context that has been fed M. -/
theorem State.Fed.bytePosition {s : State} {M : List Byte} (h : s.Fed M) : s.bytePosition = M.length % 64 := by
  rw [bytePosition_eq, h.count.1, BitVec.toNat_ofNat]
  omega

/-- R211: the length field of a context that has been fed M. -/
theorem State.Fed.lengthField {s : State} {M : List Byte} (h : s.Fed M) :
    s.lengthField = encodeWords [BitVec.ofNat 32 (8 * M.length), BitVec.ofNat 32 (8 * M.length / 0x100000000)] := by
  rw [State.lengthField, h.count.1, h.count.2]

/-- R219: the bytes FINALIZE makes of the chaining state are MD4 of the message fed. -/
theorem State.Fed.digest_eq_md4 {s : State} {M : List Byte} (h : s.Fed M) :
    (feedLengthField s.lengthField (feedPadding s)).stateBytes.toList = md4 M := by
  have hbytes := h.bytePosition
  have hfield := h.lengthField
  obtain ⟨hS, -, -, hpending⟩ := h
  rw [toList_stateBytes, feedLengthField_feedPadding_S, hS, hpending, hbytes, hfield, List.append_assoc, absorb_leftover,
    ← List.append_assoc]
  rfl

/-- R180: INIT leaves a fresh context. -/
theorem fed_nil_init (s : State) : (respond .ok { clearDigest (contextReset s) with phase := .initialized }).Fed [] :=
  fed_nil_of_initial rfl rfl rfl rfl

/-- R221: FINALIZE leaves a fresh context. -/
theorem fed_nil_finalize (s : State) : (respondDigest { contextReset s with phase := .initialized }).Fed [] :=
  fed_nil_of_initial rfl rfl rfl rfl

/-- R191: an UPDATE in bounds appends its window. -/
theorem State.Fed.update {s : State} {M : List Byte} (h : s.Fed M) (off len : Nat) :
    (respond .ok { updateCore s.srcByte off len s with phase := .updating }).Fed (M ++ s.window off len) :=
  (updateCore_fed h s.srcByte off len).congr rfl rfl rfl rfl rfl

/-- R241: an illegal header keeps the message. -/
theorem State.Fed.illegalCommand {s : State} {M : List Byte} (h : s.Fed M) : (illegalCommand s).Fed M := by
  rcases illegalCommand_cases s with e | e <;> rw [e] <;> exact h.congr rfl rfl rfl rfl rfl

@[simp] theorem illegalCommand_compressing (s : State) : (illegalCommand s).compressing = s.compressing := by
  rcases illegalCommand_cases s with e | e <;> rw [e] <;> rfl

theorem messageAfter_of_rst {s : State} (M : List Byte) (h : s.inbox.head? = some .rst) : s.messageAfter M = [] :=
  if_pos h

theorem messageAfter_of_waiting {s : State} {rx : List Word} {evs : List HostEvent} (M : List Byte)
    (hne : s.inbox.head? ≠ some .rst) (hr : receive s.rx s.inbox = .waiting rx evs) : s.messageAfter M = M := by
  simp [State.messageAfter, hne, hr]

/-- Where words have completed a command or an illegal header, the oldest input is no RST. -/
theorem head_ne_rst_of_receive {rx : List Word} {inbox : List HostEvent} {r : Received} (hr : receive rx inbox = r)
    (h : ∀ rx' evs, r ≠ .waiting rx' evs) : inbox.head? ≠ some .rst :=
  fun hrst => h _ _ (hr.symm.trans (receive_of_head_rst hrst))

theorem messageAfter_of_illegal {s : State} {evs : List HostEvent} (M : List Byte)
    (hr : receive s.rx s.inbox = .illegal evs) : s.messageAfter M = M := by
  simp [State.messageAfter, head_ne_rst_of_receive hr nofun, hr]

/-- R235: a refused command keeps the message. -/
theorem messageAfter_of_refused {s : State} {i : Instr} {evs : List HostEvent} (M : List Byte)
    (hr : receive s.rx s.inbox = .command i evs) (hf : s.fault = true) : s.messageAfter M = M := by
  have hne : s.inbox.head? ≠ some .rst := head_ne_rst_of_receive hr nofun
  rcases receive_command hr with rfl | ⟨off, len, rfl⟩ | rfl <;> simp [State.messageAfter, hne, hr, hf]

theorem messageAfter_of_init {s : State} {evs : List HostEvent} (M : List Byte)
    (hr : receive s.rx s.inbox = .command .init evs) (hf : s.fault = false) : s.messageAfter M = [] := by
  simp [State.messageAfter, hr, hf]

theorem messageAfter_of_finalize {s : State} {evs : List HostEvent} (M : List Byte)
    (hr : receive s.rx s.inbox = .command .finalize evs) (hf : s.fault = false) : s.messageAfter M = [] := by
  simp [State.messageAfter, hr, hf]

theorem messageAfter_of_update {s : State} {off len : Nat} {evs : List HostEvent} (M : List Byte)
    (hr : receive s.rx s.inbox = .command (.update off len) evs) (hf : s.fault = false) :
    s.messageAfter M = if s.srcSize < off + len then M else M ++ s.window off len := by
  have hne : s.inbox.head? ≠ some .rst := head_ne_rst_of_receive hr nofun
  simp [State.messageAfter, hne, hr, hf, State.outOfBounds]

/-- An UPDATE_CORE between commands ends between commands. -/
theorem updateCore_idle (B : Nat → Byte) (o n : Nat) {s : State} (hc : s.compressing = false) :
    (updateCore B o n s).compressing = false := by
  rw [updateCore_compressing, hc, ite_self]

/-- What a received command does to a context that has been fed M (`s` before its words are taken off the inputs). -/
theorem State.Fed.exec_command {s t : State} {M : List Byte} {i : Instr} {evs : List HostEvent} (h : s.Fed M)
    (hc : s.compressing = false) (hr : receive s.rx s.inbox = .command i evs)
    (ht : exec i (clearResponse { s with rx := [], inbox := evs }) = .next t) :
    t.Fed (s.messageAfter M) ∧ t.compressing = false ∧
      (i = .finalize → s.fault = false → t.digest.toList = md4 M) := by
  have hu : (clearResponse { s with rx := [], inbox := evs }).Fed M := h.congr rfl rfl rfl rfl rfl
  cases hf : s.fault with
  | true =>
    obtain rfl := eq_refuse_of_exec ht (receive_command hr) hf
    rw [messageAfter_of_refused M hr hf]
    exact ⟨hu.congr rfl rfl rfl rfl rfl, hc, nofun⟩
  | false =>
    rcases receive_command hr with rfl | ⟨off, len, rfl⟩ | rfl
    · cases ht.symm.trans (exec_init_ok hf)
      rw [messageAfter_of_init M hr hf]
      exact ⟨fed_nil_init _, rfl, nofun⟩
    · rw [messageAfter_of_update M hr hf]
      split
      · next hb =>
        cases ht.symm.trans (exec_update_bounds hf hb)
        exact ⟨hu.congr rfl rfl rfl rfl rfl, hc, nofun⟩
      · next hb =>
        cases ht.symm.trans (exec_update_ok hf (Nat.le_of_not_lt hb))
        exact ⟨hu.update off len, updateCore_idle _ _ _ hc, nofun⟩
    · cases ht.symm.trans (exec_finalize_ok hf)
      rw [messageAfter_of_finalize M hr hf]
      exact ⟨fed_nil_finalize _, rfl, fun _ _ => hu.digest_eq_md4⟩

/-- Settles O34: the message follows each way a step goes between commands, and UPDATE_CORE appends what it is fed. -/
theorem everyStepTracksTheMessage : Obligations.EveryStepTracksTheMessage := by
  refine ⟨fun s t M h hc hstep => ?_, fun s M off len h hf hb => ⟨_, exec_update_ok hf hb, h.update off len⟩⟩
  cases step_cases hstep with
  | micro i hc' _ _ => exact absurd (hc'.symm.trans hc) (by decide)
  | idle _ hin ht =>
    subst ht
    rw [messageAfter_of_waiting M (by simp [hin]) (by rw [hin]; rfl)]
    exact ⟨h.congr rfl rfl rfl rfl rfl, hc, fun evs hr => by simp [hin] at hr⟩
  | reset evs _ hin ht =>
    subst ht
    rw [messageAfter_of_rst M (by simp [hin])]
    exact ⟨fed_nil_of_initial rfl rfl rfl rfl, rfl, fun evs hr => by simp [hin] at hr⟩
  | source bytes evs _ hin _ ht =>
    subst ht
    rw [messageAfter_of_waiting M (by simp [hin]) (by rw [hin]; rfl)]
    exact ⟨h.congr rfl rfl rfl rfl rfl, hc, fun evs hr => by simp [hin] at hr⟩
  | command i evs _ hr ht =>
    obtain ⟨hfed, hidle, hdigest⟩ := h.exec_command hc hr ht
    exact ⟨hfed, hidle, fun evs' hr' => hdigest (by rw [hr] at hr'; cases hr'; rfl)⟩
  | illegal evs _ hr ht =>
    subst ht
    rw [messageAfter_of_illegal M hr]
    have hu : (clearResponse { s with rx := [], inbox := evs }).Fed M := h.congr rfl rfl rfl rfl rfl
    exact ⟨hu.illegalCommand, by simpa using hc, fun evs' hr' => by simp [hr] at hr'⟩
  | waiting rx evs _ hin hr ht =>
    subst ht
    obtain ⟨w, es, hin⟩ := hin
    rw [messageAfter_of_waiting M (by simp [hin]) hr]
    exact ⟨h.congr rfl rfl rfl rfl rfl, hc, fun evs' hr' => by simp [hr] at hr'⟩

/-- Settles O33: S, bitCount and pendingLen after reset and after INIT are those of a context fed nothing. -/
theorem freshContextIsFedNothing : Obligations.FreshContextIsFedNothing :=
  ⟨fed_nil_of_initial rfl rfl rfl rfl, fun s hf => ⟨_, exec_init_ok hf, fed_nil_init s⟩⟩

end Sys2Proof.Machine
end

section
/-! SUPPORT. What UPDATE and the reset operations leave in the state (10_state.md R27, R39), and the frame of UPDATE. -/

namespace Sys2Proof.Machine

/-- Settles O26: X and SC after UPDATE_CORE, on both of its paths. -/
theorem updateLeavesTheLastBlockInX : Obligations.UpdateLeavesTheLastBlockInX := by
  intro s t off len hf hb ht
  rw [exec_update_ok hf hb] at ht
  cases ht
  constructor
  · intro happend
    simp [updateCore_X, updateCore_sc, happend]
  · intro hblock
    simp [updateCore_X, updateCore_sc, Nat.not_lt.2 hblock, State.window]

/-- Settles O27: each of the three answers of UPDATE keeps what it does not name. -/
theorem updateFrame : Obligations.UpdateFrame := by
  intro s off len
  obtain ⟨-, e⟩ | ⟨-, -, e⟩ | ⟨-, -, e⟩ := exec_update_cases s off len
  · exact ⟨_, e, rfl, rfl, rfl, rfl, srcByte_congr rfl, fun _ => ⟨rfl, rfl⟩,
      fun _ => ⟨rfl, rfl, rfl, rfl, rfl, rfl, rfl, rfl⟩⟩
  · exact ⟨_, e, rfl, rfl, rfl, rfl, srcByte_congr rfl, fun hrsp => absurd rfl hrsp,
      fun _ => ⟨rfl, rfl, rfl, rfl, rfl, rfl, rfl, rfl⟩⟩
  · refine ⟨_, e, ?_, ?_, ?_, ?_, srcByte_congr ?_, fun _ => ⟨?_, ?_⟩, fun hrsp => absurd rfl hrsp⟩ <;> simp

/-- Settles O11: State.reset, INIT and FINALIZE row by row; what FINALIZE serializes is the state it has absorbed. -/
theorem resetStateHasTheSpecValues : Obligations.ResetStateHasTheSpecValues := by
  unfold Obligations.ResetStateHasTheSpecValues
  intro contextInitial zeroDigest
  refine ⟨⟨⟨rfl, rfl, rfl, ?_, rfl, ?_, rfl, rfl⟩, ?_, rfl, rfl⟩, fun s hf => ⟨⟨_, exec_init_ok hf, ?_⟩, ?_⟩⟩
  · simp [State.reset]
  · simp [State.reset]
  · simp [zeroDigest, State.reset]
  · exact ⟨⟨rfl, rfl, rfl, by simp, rfl, by simp, rfl, rfl⟩, by simp [zeroDigest], hf, rfl⟩
  · refine ⟨_, exec_finalize_ok hf, ⟨rfl, rfl, rfl, by simp, rfl, by simp, rfl, rfl⟩, rfl, ?_, by simpa using hf, by simp⟩
    simp [feedLengthField_feedPadding_S]

end Sys2Proof.Machine
end

section
/-! SUPPORT. Who may write: the STATUS word (10_state.md R34), DIGEST (R26), the chaining state (R20, R35), and the
cores of a platform (R36). -/

namespace Sys2Proof.Machine

/-- R34: where each field of STATUS stands, for every value of the fields. -/
theorem statusBits : ∀ (fault : Bool) (cause : BitVec 2) (phase : BitVec 1),
    let w : Word := (BitVec.ofBool fault).setWidth 32 ||| (cause.setWidth 32 <<< 1) ||| (phase.setWidth 32 <<< 3)
    w.getLsbD 0 = fault ∧ w.extractLsb' 1 2 = cause ∧ w.getLsbD 3 = phase.getLsbD 0 ∧ w.extractLsb' 4 28 = 0#28 := by
  decide

/-- Settles O53: the fields stand in their places, and their values are CAUSE's and PHASE's numbers. -/
theorem statusLayout : Obligations.StatusLayout := by
  refine ⟨fun s => ?_, by decide⟩
  obtain ⟨hfault, hcause, hphase, hzero⟩ := statusBits s.fault s.cause.bits s.phase.bit
  refine ⟨hfault, ?_, ?_, congrArg BitVec.toNat hzero⟩
  · rw [State.status, hcause]
    cases s.cause <;> rfl
  · rw [State.status, hphase]
    cases s.phase <;> decide

/-- A micro-operation that SC selects keeps DIGEST. -/
theorem exec_micro_digest {s t : State} {i : Instr} {sc : BitVec 6} (hi : decodeMicro sc = some i)
    (ht : exec i s = .next t) : t.digest = s.digest := by
  obtain ⟨-, w, hw⟩ | ⟨-, rfl⟩ := decodeMicro_exec hi
  · rw [hw] at ht
    cases ht
    rfl
  · cases ht
    rfl

@[simp] theorem illegalCommand_digest (s : State) : (illegalCommand s).digest = s.digest := by
  rcases illegalCommand_cases s with e | e <;> rw [e] <;> rfl

/-- Settles O56: RST, INIT and FINALIZE are named, and every other way a step goes keeps DIGEST. -/
theorem digestOnlyChangedByInitFinalizeReset : Obligations.DigestOnlyChangedByInitFinalizeReset := by
  intro s t hstep hne
  cases step_cases hstep with
  | micro i _ hi ht => exact absurd (exec_micro_digest hi ht) hne
  | idle _ _ ht => exact absurd (by rw [ht]; rfl) hne
  | reset evs hc hin _ => exact ⟨hc, .inl (by rw [hin]; rfl)⟩
  | source bytes evs _ _ _ ht => exact absurd (by rw [ht]; rfl) hne
  | command i evs hc hr ht =>
    obtain ⟨-, rfl⟩ | ⟨hf, rfl, -⟩ | ⟨-, off, len, -, rfl | rfl⟩ | ⟨hf, rfl, -⟩ := exec_command_cases (receive_command hr) ht
    · exact absurd rfl hne
    · exact ⟨hc, .inr ⟨hf, evs, .inl hr⟩⟩
    · exact absurd rfl hne
    · exact absurd (by simp) hne
    · exact ⟨hc, .inr ⟨hf, evs, .inr hr⟩⟩
  | illegal evs _ _ ht => exact absurd (by simp [ht]) hne
  | waiting rx evs _ _ _ ht => exact absurd (by rw [ht]; rfl) hne

/-- The fields of the state that make up the context of a hash (R20 to R23) agree. -/
def State.SameContext (s t : State) : Prop :=
  t.S = s.S ∧ t.countLo = s.countLo ∧ t.countHi = s.countHi ∧ t.buf = s.buf ∧ t.pendingLen = s.pendingLen

/-- A micro-operation that SC selects keeps the context, or it is the feed-forward and keeps all of it but S. -/
theorem exec_micro_context {s t : State} {i : Instr} {sc : BitVec 6} (hi : decodeMicro sc = some i)
    (ht : exec i s = .next t) :
    s.SameContext t ∨ (sc = 48#6 ∧ t.countLo = s.countLo ∧ t.countHi = s.countHi ∧ t.buf = s.buf ∧
      t.pendingLen = s.pendingLen) := by
  obtain ⟨-, w, hw⟩ | ⟨hsc, rfl⟩ := decodeMicro_exec hi
  · rw [hw] at ht
    cases ht
    exact .inl ⟨rfl, rfl, rfl, rfl, rfl⟩
  · cases ht
    exact .inr ⟨hsc, rfl, rfl, rfl, rfl⟩

theorem illegalCommand_sameContext (s : State) : s.SameContext (illegalCommand s) := by
  rcases illegalCommand_cases s with e | e <;> rw [e] <;> exact ⟨rfl, rfl, rfl, rfl, rfl⟩

/-- A step keeps the context, or it is one of the ways the access table (R35) names. -/
theorem step_context {s t : State} (hstep : step s = .next t) :
    s.SameContext t ∨
    (s.compressing = true ∧ s.sc = 48#6 ∧ t.countLo = s.countLo ∧ t.countHi = s.countHi ∧ t.buf = s.buf ∧
      t.pendingLen = s.pendingLen) ∨
    (s.compressing = false ∧ s.inbox.head? = some .rst) ∨
    (s.compressing = false ∧ s.fault = false ∧ ∃ i evs, receive s.rx s.inbox = .command i evs) := by
  cases step_cases hstep with
  | micro i hc hi ht => exact (exec_micro_context hi ht).imp_right fun h => .inl ⟨hc, h⟩
  | idle _ _ ht => subst ht; exact .inl ⟨rfl, rfl, rfl, rfl, rfl⟩
  | reset evs hc hin _ => exact .inr (.inr (.inl ⟨hc, by rw [hin]; rfl⟩))
  | source bytes evs _ _ _ ht => subst ht; exact .inl ⟨rfl, rfl, rfl, rfl, rfl⟩
  | command i evs hc hr ht =>
    cases hf : s.fault with
    | true =>
      obtain rfl := eq_refuse_of_exec ht (receive_command hr) hf
      exact .inl ⟨rfl, rfl, rfl, rfl, rfl⟩
    | false => exact .inr (.inr (.inr ⟨hc, rfl, i, evs, hr⟩))
  | illegal evs _ _ ht => subst ht; exact .inl (illegalCommand_sameContext _)
  | waiting rx evs _ _ _ ht => subst ht; exact .inl ⟨rfl, rfl, rfl, rfl, rfl⟩

/-- Settles O57: a step that changes the context does not keep it, so it goes one of the other ways. -/
theorem chainingStateWrittenOnlyBy : Obligations.ChainingStateWrittenOnlyBy := by
  intro s t hstep hchange
  refine (step_context hstep).resolve_left ?_
  rintro ⟨hS, hlo, hhi, hbuf, hlen⟩
  simp [hS, hlo, hhi, hbuf, hlen] at hchange

/-- R36, R67: what a move of core k comes to, nothing where there is no such core, else that core's own step. -/
theorem stepAt_cases {p q : Platform} {k : Nat} (h : Platform.stepAt k p = .next q) :
    (p.cores[k]? = none ∧ q = p) ∨
    ∃ s t, p.cores[k]? = some s ∧ step s = .next t ∧ q = ⟨p.cores.set k t⟩ := by
  unfold Platform.stepAt at h
  split at h
  · next hk => cases h; exact .inl ⟨hk, rfl⟩
  · next s hk =>
    split at h
    · next t ht => cases h; exact .inr ⟨s, t, hk, ht, rfl⟩
    · cases h
    · cases h

/-- Settles O59: a move writes position k of the list of cores alone, with a step of the state that stood there. -/
theorem instancesShareNothing : Obligations.InstancesShareNothing := by
  intro p q k h
  obtain ⟨hk, rfl⟩ | ⟨s, t, hk, ht, rfl⟩ := stepAt_cases h
  · exact ⟨rfl, fun _ _ => rfl, fun s hs => by simp [hk] at hs⟩
  · obtain ⟨hlt, -⟩ := List.getElem?_eq_some_iff.1 hk
    refine ⟨List.length_set, fun j hj => List.getElem?_set_ne (Ne.symm hj), fun s' hs' => ?_⟩
    obtain rfl : s = s' := by simpa [hk] using hs'
    exact ⟨t, ht, List.getElem?_set_self hlt⟩

end Sys2Proof.Machine
end

section
/-! SUPPORT. The source window (20_memory.md R50, R57): how the host presents it, that an UPDATE depends on the bytes of its
own window alone, and that nothing else writes it. -/

namespace Sys2Proof.Machine

/-- R50, R70: a step between commands takes a source window off the inputs. -/
theorem step_of_source {s : State} {bytes : List Byte} {evs : List HostEvent} (hc : s.compressing = false)
    (hin : s.inbox = .src bytes :: evs) (hlen : bytes.length < 0x100000000) :
    step s = .next (presentSource bytes (clearResponse { s with inbox := evs })) := by
  simp [step, fetch, hc, hin, hlen]

/-- R9: a source window larger than SRC_SIZE can say is refused by name. -/
theorem step_of_source_tooLarge {s : State} {bytes : List Byte} {evs : List HostEvent} (hc : s.compressing = false)
    (hin : s.inbox = .src bytes :: evs) (hlen : 0x100000000 ≤ bytes.length) : step s = .refused .sourceTooLarge := by
  simp [step, fetch, hc, hin, Nat.not_lt.2 hlen]

/-- Settles O9: the step presents the window, and the cells of a presented window read back as its bytes. -/
theorem hostPresentsSource : Obligations.HostPresentsSource := fun _ bytes _ hc hin =>
  ⟨fun hlen => ⟨_, step_of_source hc hin hlen, rfl, Memory.read_ofBytes bytes, Memory.wf_ofBytes bytes, rfl⟩,
    step_of_source_tooLarge hc hin⟩

/-- R57: UPDATE_CORE over SRC, with the cells of SRC replaced by others that agree on the window. -/
theorem updateCore_srcByte_withSrcMem {s : State} {m : Memory} {off len : Nat}
    (h : ∀ j, off ≤ j → j < off + len → s.srcMem.read j = m.read j) :
    updateCore ({ s with srcMem := m } : State).srcByte off len { s with srcMem := m } =
      { updateCore s.srcByte off len s with srcMem := m } := by
  have hcore : updateCore s.srcByte off len s = updateCore ({ s with srcMem := m } : State).srcByte off len s :=
    updateCore_congr off len s h
  rw [updateCore_withSrcMem, hcore]

/-- Settles O29: replacing the cells of SRC changes neither which answer an UPDATE gives nor what UPDATE_CORE absorbs. -/
theorem updateReadsOnlyItsWindow : Obligations.UpdateReadsOnlyItsWindow := by
  intro s m off len h
  obtain ⟨hf, e⟩ | ⟨hf, hb, e⟩ | ⟨hf, hb, e⟩ := exec_update_cases s off len
  · exact ⟨_, e, exec_refused (s := { s with srcMem := m }) hf (.inr (.inl ⟨off, len, rfl⟩))⟩
  · exact ⟨_, e, exec_update_bounds (s := { s with srcMem := m }) hf hb⟩
  · refine ⟨_, e, ?_⟩
    rw [exec_update_ok (s := { s with srcMem := m }) hf hb, updateCore_srcByte_withSrcMem h]
    rfl

/-- The source window of two states is the same. -/
def State.SameSource (s t : State) : Prop := t.srcSize = s.srcSize ∧ t.srcMem = s.srcMem

/-- A micro-operation that SC selects keeps the source window. -/
theorem exec_micro_sameSource {s t : State} {i : Instr} {sc : BitVec 6} (hi : decodeMicro sc = some i)
    (ht : exec i s = .next t) : s.SameSource t := by
  obtain ⟨-, w, hw⟩ | ⟨-, rfl⟩ := decodeMicro_exec hi
  · rw [hw] at ht
    cases ht
    exact ⟨rfl, rfl⟩
  · cases ht
    exact ⟨rfl, rfl⟩

/-- The three commands keep the source window, whatever they answer. -/
theorem exec_command_sameSource {s t : State} {i : Instr}
    (hi : i = .init ∨ (∃ off len, i = .update off len) ∨ i = .finalize) (ht : exec i s = .next t) :
    s.SameSource t := by
  obtain ⟨-, rfl⟩ | ⟨-, -, rfl⟩ | ⟨-, off, len, -, rfl | rfl⟩ | ⟨-, -, rfl⟩ := exec_command_cases hi ht
  · exact ⟨rfl, rfl⟩
  · exact ⟨rfl, rfl⟩
  · exact ⟨rfl, rfl⟩
  · exact ⟨by simp, by simp⟩
  · exact ⟨by simp, by simp⟩

theorem illegalCommand_sameSource (s : State) : s.SameSource (illegalCommand s) := by
  rcases illegalCommand_cases s with e | e <;> rw [e] <;> exact ⟨rfl, rfl⟩

/-- A step keeps the source window, or the host has presented one. -/
theorem step_source {s t : State} (hstep : step s = .next t) :
    s.SameSource t ∨ (s.compressing = false ∧ ∃ bytes, s.inbox.head? = some (.src bytes)) := by
  cases step_cases hstep with
  | micro i _ hi ht => exact .inl (exec_micro_sameSource (s := clearResponse s) hi ht)
  | idle _ _ ht => subst ht; exact .inl ⟨rfl, rfl⟩
  | reset evs _ _ ht => subst ht; exact .inl ⟨rfl, rfl⟩
  | source bytes evs hc hin _ _ => exact .inr ⟨hc, bytes, by rw [hin]; rfl⟩
  | command i evs _ hr ht =>
    exact .inl (exec_command_sameSource (s := clearResponse { s with rx := [], inbox := evs }) (receive_command hr) ht)
  | illegal evs _ _ ht => subst ht; exact .inl (illegalCommand_sameSource _)
  | waiting rx evs _ _ _ ht => subst ht; exact .inl ⟨rfl, rfl⟩

/-- Settles O58: of the ways a step goes, the one that does not keep the source window is excluded. -/
theorem sourceWrittenOnlyByHost : Obligations.SourceWrittenOnlyByHost := by
  intro s t hstep hno
  obtain ⟨hsize, hmem⟩ | ⟨hc, bytes, hin⟩ := step_source hstep
  · exact ⟨hsize, srcByte_congr hmem⟩
  · exact absurd hin (hno bytes hc)

end Sys2Proof.Machine
end

section
/-! SUPPORT. The encoding (30_encoding.md): commands and their words in both directions, SC and its micro-operations in both
directions, the response word (R78, R79) and the pseudo-commands (R90). -/

namespace Sys2Proof.Machine

/-! ## Commands and their words (R71 to R76) -/

/-- R72, R73: the decoder reads a command's own words and leaves what follows them. -/
theorem decodeCommand_commandWords {i : Instr} (hi : i = .init ∨ (∃ off len, i = .update off len) ∨ i = .finalize)
    (hwf : i.wf = true) (rest : List Word) : decodeCommand (commandWords i ++ rest) = .command i rest := by
  obtain rfl | ⟨off, len, rfl⟩ | rfl := hi
  · rfl
  · obtain ⟨hoff, hlen⟩ : off < 0x100000000 ∧ len < 0x100000000 := by simpa [Instr.wf] using hwf
    change Decoded.command (.update (BitVec.ofNat 32 off).toNat (BitVec.ofNat 32 len).toNat) rest = _
    rw [BitVec.toNat_ofNat, BitVec.toNat_ofNat, Nat.mod_eq_of_lt hoff, Nat.mod_eq_of_lt hlen]
  · rfl

/-- R85: an instruction is one of the three commands, or the micro-operation that its encoding selects as SC. -/
theorem command_or_micro (i : Instr) :
    (i = .init ∨ (∃ off len, i = .update off len) ∨ i = .finalize) ∨
    ∃ sc, encode i = .micro sc ∧ decodeMicro sc = some i := by
  cases i with
  | init => exact .inl (.inl rfl)
  | update off len => exact .inl (.inr (.inl ⟨off, len, rfl⟩))
  | finalize => exact .inl (.inr (.inr rfl))
  | _ => exact .inr ⟨_, rfl, rfl⟩

/-- The encoding of a command is its words. -/
theorem encode_of_command {i : Instr} (hi : i = .init ∨ (∃ off len, i = .update off len) ∨ i = .finalize) :
    encode i = .command (commandWords i) := by
  obtain rfl | ⟨off, len, rfl⟩ | rfl := hi <;> rfl

/-- Settles O2: a command is read back from the front of any words that begin with its own, a micro-operation from its SC. -/
theorem decodeInvertsEncode : Obligations.DecodeInvertsEncode := by
  intro i hwf
  obtain hi | ⟨sc, hsc, hdec⟩ := command_or_micro i
  · have hwords := decodeCommand_commandWords hi hwf []
    rw [List.append_nil] at hwords
    exact ⟨by rw [encode_of_command hi, decode, hwords], fun rest _ => decodeCommand_commandWords hi hwf rest⟩
  · exact ⟨by rw [hsc, decode, hdec], fun rest hne => absurd (by rw [commandWords, hsc]) hne⟩

/-- Settles O3: of the answers of the decoder, each command is its own words and what follows them. -/
theorem commandWordsDetermineTheCommand : Obligations.CommandWordsDetermineTheCommand := by
  intro ws i rest h
  cases ws with
  | nil => cases h
  | cons hdr ws =>
    obtain ⟨rfl, e⟩ | ⟨rfl, off, len, _, rfl, e⟩ | ⟨-, -, e⟩ | ⟨rfl, e⟩ | ⟨-, -, -, _, e⟩ := decodeCommand_cases hdr ws <;>
      rw [e] at h <;> cases h
    · exact ⟨rfl, rfl⟩
    · have hoff : off.toNat < 0x100000000 := off.isLt
      have hlen : len.toNat < 0x100000000 := len.isLt
      exact ⟨by simp [Instr.wf, hoff, hlen], by simp [commandWords, encode]⟩
    · exact ⟨rfl, rfl⟩

/-- R74: UPDATE's header has two words after it, every other header none. -/
theorem commandLength_eq (h : Word) : commandLength h = if h = 0x00000002#32 then 3 else 1 := by
  have hupdate : (headerRsvd h = 0#24 ∧ headerOpc h = 0x02#8) ↔ h = 0x00000002#32 :=
    ⟨fun ⟨hr, ho⟩ => header_of_fields h 2 (by decide) hr ho, fun e => by subst e; decide⟩
  simp only [commandLength, hupdate]

/-- R76: the headers that are no command's, by their two fields. -/
theorem header_reserved_iff (h : Word) :
    (h ≠ 0x00000001#32 ∧ h ≠ 0x00000002#32 ∧ h ≠ 0x00000003#32) ↔
      256 ≤ h.toNat ∨ (h.toNat % 256 ≠ 1 ∧ h.toNat % 256 ≠ 2 ∧ h.toNat % 256 ≠ 3) := by
  simp only [ne_eq, ← BitVec.toNat_inj, BitVec.toNat_ofNat]
  omega

/-- R76: the decoder rejects exactly the headers that are no command's. -/
theorem decodeCommand_illegal_iff (h : Word) (ws : List Word) :
    (∃ why rest, decodeCommand (h :: ws) = .illegal why rest) ↔
      h ≠ 0x00000001#32 ∧ h ≠ 0x00000002#32 ∧ h ≠ 0x00000003#32 := by
  obtain ⟨rfl, e⟩ | ⟨rfl, _, _, _, -, e⟩ | ⟨rfl, -, e⟩ | ⟨rfl, e⟩ | ⟨h1, h2, h3, why, e⟩ := decodeCommand_cases h ws
  · simp [e]
  · simp [e]
  · simp [e]
  · simp [e]
  · exact ⟨fun _ => ⟨h1, h2, h3⟩, fun _ => ⟨why, ws, e⟩⟩

/-- R74: with fewer words than the header says the decoder waits. -/
theorem decodeCommand_of_short {h : Word} {ws : List Word} (hlen : ws.length + 1 < commandLength h) :
    decodeCommand (h :: ws) = .incomplete := by
  rw [commandLength_eq] at hlen
  split at hlen
  · next hh =>
    subst hh
    match ws, hlen with
    | [], _ => rfl
    | [_], _ => rfl
  · omega

/-- R74: with enough words the decoder consumes as many as the header says, of an illegal header too. -/
theorem decodeCommand_of_enough {h : Word} {ws : List Word} (hlen : commandLength h ≤ ws.length + 1) :
    (∃ i, decodeCommand (h :: ws) = .command i (ws.drop (commandLength h - 1))) ∨
    (∃ why, decodeCommand (h :: ws) = .illegal why (ws.drop (commandLength h - 1))) := by
  rw [commandLength_eq] at hlen ⊢
  obtain ⟨rfl, e⟩ | ⟨rfl, _, _, _, rfl, e⟩ | ⟨rfl, hshort, -⟩ | ⟨rfl, e⟩ | ⟨-, h2, -, why, e⟩ := decodeCommand_cases h ws
  · exact .inl ⟨_, e⟩
  · exact .inl ⟨_, e⟩
  · rw [if_pos rfl] at hlen
    omega
  · exact .inl ⟨_, e⟩
  · exact .inr ⟨why, by rw [e, if_neg h2]; rfl⟩

/-- Settles O4: the length is 3 for UPDATE's header and 1 for every other, and the decoder goes by it. -/
theorem commandLengthFromHeader : Obligations.CommandLengthFromHeader := by
  intro h ws
  refine ⟨by simp [commandLength_eq], ?_, decodeCommand_of_short, decodeCommand_of_enough,
    (decodeCommand_illegal_iff h ws).trans (header_reserved_iff h)⟩
  · rw [commandLength_eq]
    split
    · exact .inl rfl
    · exact .inr rfl

/-! ## SC and its micro-operations (R85 to R88) -/

/-- R88: the encoding of the micro-operation that a value of SC selects is that value. -/
theorem encode_of_decodeMicro {sc : BitVec 6} {i : Instr} (h : decodeMicro sc = some i) : encode i = .micro sc := by
  have table : ∀ sc : BitVec 6, ∀ i ∈ decodeMicro sc, encode i = .micro sc := by decide
  exact table sc i h

/-- R87: a running compression at a value of SC that selects nothing is stuck. -/
theorem step_of_stuck {s : State} (hc : s.compressing = true) (hsc : decodeMicro s.sc = none) :
    step s = .fault (.stuckStepCounter s.sc) := by
  simp [step, fetch, hc, hsc]

/-- Settles O5: what SC selects has SC as its encoding, and above 48 it selects nothing. -/
theorem stepCounterSelectsFortyNineOperations : Obligations.StepCounterSelectsFortyNineOperations := by
  refine ⟨decodeMicro_isSome, fun sc sc' i h h' => ?_, fun s hc hsc => step_of_stuck hc ?_⟩
  · exact Encoded.micro.inj ((encode_of_decodeMicro h).symm.trans (encode_of_decodeMicro h'))
  · rw [Option.eq_none_iff_forall_ne_some]
    exact fun i hi => absurd ((decodeMicro_isSome s.sc).1 ⟨i, hi⟩) (Nat.not_le.2 hsc)

/-- Settles O7: while a compression runs, a step does not look at the inputs. -/
theorem stepRunsSelectedMicroOperation : Obligations.StepRunsSelectedMicroOperation :=
  fun _ _ hc hi => step_of_micro hc hi

/-- Settles O45: each row of the table, with its numbers written out, is the row the formulas of R86 compute. -/
theorem stepTableFollowsTheSchedule : Obligations.StepTableFollowsTheSchedule := by
  intro n hn
  interval_cases n <;> exact ⟨_, rfl, fun s => rfl⟩

/-! ## What a step between commands does with its inputs (R70, R74, R77) -/

/-- R250: with nothing at its inputs the machine holds its state. -/
theorem step_of_idle {s : State} (hc : s.compressing = false) (hin : s.inbox = []) : step s = .next (clearResponse s) := by
  simp [step, fetch, hc, hin]

/-- R260: a step between commands takes RST off the inputs. -/
theorem step_of_rst {s : State} {evs : List HostEvent} (hc : s.compressing = false) (hin : s.inbox = .rst :: evs) :
    step s = .next (hardwareReset { s with inbox := evs }) := by
  simp [step, fetch, hc, hin]

/-- R74: a step between commands keeps the words of a command that lacks some. -/
theorem step_of_waiting {s : State} {w : Word} {es evs : List HostEvent} {rx : List Word} (hc : s.compressing = false)
    (hin : s.inbox = .word w :: es) (hr : receive s.rx s.inbox = .waiting rx evs) :
    step s = .next (clearResponse { s with rx := rx, inbox := evs }) := by
  rw [hin] at hr
  simp [step, fetch, hc, hin, hr]

/-- Settles O6: reception of the command's last words completes it. -/
theorem stepRunsDecodedCommand : Obligations.StepRunsDecodedCommand := by
  intro s i ws evs hc hrx hne hin hd
  have hr : receive s.rx s.inbox = .command i evs := by rw [hin]; exact receive_of_command ws s.rx evs hne hrx hd
  exact step_of_command hc hr

/-- Settles O8: reception keeps the words that complete nothing, and without inputs there is nothing to receive. -/
theorem partlyReceivedCommandWaits : Obligations.PartlyReceivedCommandWaits := by
  refine ⟨fun s ws evs hc hne hin hevs _ hd => ?_, fun s hc hin => step_of_idle hc hin⟩
  have hr : receive s.rx s.inbox = .waiting (s.rx ++ ws) evs := by
    rw [hin]
    exact receive_of_incomplete ws s.rx evs hevs hd
  obtain ⟨w, ws', rfl⟩ := List.exists_cons_of_ne_nil hne
  exact step_of_waiting hc hin hr

/-- Every micro-operation that SC selects answers a next state. -/
theorem exec_micro_next {sc : BitVec 6} {i : Instr} (hi : decodeMicro sc = some i) (s : State) :
    ∃ t, exec i s = .next t := by
  obtain ⟨-, w, hw⟩ | ⟨-, rfl⟩ := decodeMicro_exec hi
  · exact ⟨_, hw s⟩
  · exact ⟨_, rfl⟩

/-- A step of a running compression whose SC is at most 48 answers a next state. -/
theorem step_next_of_running {s : State} (hc : s.compressing = true) (hsc : s.sc.toNat ≤ 48) : ∃ t, step s = .next t := by
  obtain ⟨i, hi⟩ := (decodeMicro_isSome s.sc).2 hsc
  rw [step_of_micro hc hi]
  exact exec_micro_next hi _

/-- A step between commands that takes command words answers a next state, whatever they come to. -/
theorem step_next_of_word {s : State} {w : Word} {es : List HostEvent} (hc : s.compressing = false)
    (hin : s.inbox = .word w :: es) : ∃ t, step s = .next t := by
  cases hr : receive s.rx s.inbox with
  | command i evs =>
    rw [step_of_command hc hr]
    exact exec_command_next (receive_command hr) _
  | illegal evs => exact ⟨_, step_of_illegal hc hr⟩
  | waiting rx evs => exact ⟨_, step_of_waiting hc hin hr⟩

/-- Settles O14: the invariant keeps SC in the table, and the window is in range; neither of the two stops is left. -/
theorem invariantStatesNeverStick : Obligations.InvariantStatesNeverStick := by
  intro s h hin
  cases hc : s.compressing with
  | true => exact step_next_of_running hc (by simpa [State.sequencerOk, hc] using h.sequencer)
  | false =>
    match hi : s.inbox with
    | [] => exact ⟨_, step_of_idle hc hi⟩
    | .rst :: evs => exact ⟨_, step_of_rst hc hi⟩
    | .src bytes :: evs =>
      have hwf : (HostEvent.src bytes).wf = true := hin _ (by rw [hi]; rfl)
      exact ⟨_, step_of_source hc hi (of_decide_eq_true hwf)⟩
    | .word w :: evs => exact step_next_of_word hc hi

/-! ## Responses (R77 to R80) -/

/-- A micro-operation that SC selects keeps the response. -/
theorem exec_micro_rsp {s t : State} {i : Instr} {sc : BitVec 6} (hi : decodeMicro sc = some i)
    (ht : exec i s = .next t) : t.rsp = s.rsp := by
  obtain ⟨-, w, hw⟩ | ⟨-, rfl⟩ := decodeMicro_exec hi
  · rw [hw] at ht
    cases ht
    rfl
  · cases ht
    rfl

/-- R77: a command answers, whatever it answers. -/
theorem exec_command_rsp_ne_none {s t : State} {i : Instr}
    (hi : i = .init ∨ (∃ off len, i = .update off len) ∨ i = .finalize) (ht : exec i s = .next t) : t.rsp ≠ none := by
  obtain ⟨-, rfl⟩ | ⟨-, -, rfl⟩ | ⟨-, off, len, -, rfl | rfl⟩ | ⟨-, -, rfl⟩ := exec_command_cases hi ht <;> simp

/-- R77, R241: an illegal header is answered. -/
theorem illegalCommand_rsp_ne_none (s : State) : (illegalCommand s).rsp ≠ none := by
  rcases illegalCommand_cases s with e | e <;> simp [e]

/-- R77: the words received complete a command or are an illegal header. -/
def State.Completes (s : State) : Prop :=
  (∃ i evs, receive s.rx s.inbox = .command i evs) ∨ ∃ evs, receive s.rx s.inbox = .illegal evs

/-- Words that are still waited for complete nothing. -/
theorem not_completes_of_waiting {s : State} {rx : List Word} {evs : List HostEvent}
    (hr : receive s.rx s.inbox = .waiting rx evs) : ¬ s.Completes := by
  simp [State.Completes, hr]

/-- Settles O55: a command and an illegal header are answered, and every other way a step goes leaves no response. -/
theorem oneResponsePerCommand : Obligations.OneResponsePerCommand := by
  intro s t hstep
  change t.rsp ≠ none ↔ s.compressing = false ∧ s.Completes
  cases step_cases hstep with
  | micro i hc hi ht =>
    have hrsp : t.rsp = none := exec_micro_rsp hi ht
    simp [hrsp, hc]
  | idle _ hin ht =>
    subst ht
    simp [not_completes_of_waiting (s := s) (by rw [hin, receive_nil])]
  | reset evs _ hin ht =>
    subst ht
    simp [hardwareReset, not_completes_of_waiting (s := s) (by rw [hin, receive_rst])]
  | source bytes evs _ hin _ ht =>
    subst ht
    simp [not_completes_of_waiting (s := s) (by rw [hin, receive_src])]
  | command i evs hc hr ht =>
    exact iff_of_true (exec_command_rsp_ne_none (receive_command hr) ht) ⟨hc, .inl ⟨i, evs, hr⟩⟩
  | illegal evs hc hr ht =>
    subst ht
    exact iff_of_true (illegalCommand_rsp_ne_none _) ⟨hc, .inr ⟨evs, hr⟩⟩
  | waiting rx evs _ _ hr ht =>
    subst ht
    simp [not_completes_of_waiting hr]

/-- R78: a response word has zeros above CODE. -/
theorem response_word_high (r : Response) : r.word.extractLsb' 2 30 = 0#30 := by
  have widened : ∀ code : BitVec 2, (code.setWidth 32).extractLsb' 2 30 = 0#30 := by decide
  exact widened r.code.bits

/-- R78: a response word is the number CODE. -/
theorem response_word_toNat (r : Response) : r.word.toNat = r.code.bits.toNat :=
  BitVec.toNat_setWidth_of_le (by decide)

/-- Settles O54: the word is CODE's number, which R79 gives for each of the four codes. -/
theorem responseWordLayout : Obligations.ResponseWordLayout := by
  refine fun r => ⟨response_word_high r, (response_word_toNat r).trans ?_⟩
  cases r.code <;> rfl

/-! ## Pseudo-commands (R90) -/

/-- Settles O60: the lines of an expansion put their events on the inputs one after the other. -/
theorem pseudoCommandsExpand : Obligations.PseudoCommandsExpand := by
  refine ⟨fun n len ls => ⟨?_, ?_, ?_⟩, rfl⟩
  · simp [assemble, expandLine, sizeAfter]
  · simp [assemble, expandLine, sizeAfter]
  · simp [assemble, expandLine, sizeAfter]

end Sys2Proof.Machine
end

section
/-! SUPPORT. The word codec (40_word_codec.md): the bytes of an encoding four by four, and a decoding word by word. -/

namespace Sys2Proof.Machine

theorem listByte_append_left {l : List Byte} {j : Nat} (h : j < l.length) (r : List Byte) :
    listByte (l ++ r) j = listByte l j :=
  List.getD_append l r _ j h

theorem listByte_append_right (l r : List Byte) (j : Nat) : listByte (l ++ r) (l.length + j) = listByte r j := by
  simp [listByte, List.getElem?_append_right]

/-- R103: bytes 4i to 4i + 3 of an encoding are the bytes of word i. -/
theorem listByte_encodeWords {ws : List Word} {i k : Nat} (hi : i < ws.length) (hk : k < 4) :
    listByte (encodeWords ws) (4 * i + k) = listByte (encode32 ws[i]) k := by
  induction ws generalizing i with
  | nil => cases hi
  | cons w ws ih =>
    rw [encodeWords_cons]
    cases i with
    | zero =>
      rw [Nat.mul_zero, Nat.zero_add]
      exact listByte_append_left hk _
    | succ i =>
      have hpos : 4 * (i + 1) + k = (encode32 w).length + (4 * i + k) := by
        rw [encode32_length]
        omega
      rw [hpos, listByte_append_right]
      exact ih (Nat.lt_of_succ_lt_succ hi)

/-- R104: decoding the encoding of n words gives the words. -/
theorem decodeWords_encodeWords {n : Nat} (W : Vector Word n) :
    decodeWords (listByte (encodeWords W.toList)) 0 n = W := by
  ext i hi : 1
  have hbyte : ∀ k < 4, listByte (encodeWords W.toList) (4 * i + k) = listByte (encode32 W[i]) k := fun k hk =>
    listByte_encodeWords (by simpa using hi) hk
  have hbyte0 := hbyte 0 (by decide)
  rw [Nat.add_zero] at hbyte0
  rw [decodeWords_getElem, Nat.zero_add, hbyte0, hbyte 1 (by decide), hbyte 2 (by decide), hbyte 3 (by decide)]
  exact le32_encode32 W[i]

/-- R102: the last of n + 1 decoded words is the one of the four bytes at off + 4n. -/
theorem decodeWords_succ (B : Nat → Byte) (off n : Nat) :
    decodeWords B off (n + 1) = (decodeWords B off n).push
      (le32 (B (off + 4 * n)) (B (off + 4 * n + 1)) (B (off + 4 * n + 2)) (B (off + 4 * n + 3))) := by
  ext i hi : 1
  rw [Vector.getElem_push, decodeWords_getElem]
  split
  · rw [decodeWords_getElem]
  · rw [show i = n by omega]

/-- R103: an encoding is made word by word. -/
theorem encodeWords_concat (ws : List Word) (w : Word) : encodeWords (ws ++ [w]) = encodeWords ws ++ encode32 w := by
  simp [encodeWords]

theorem sourceBytes_add_four (B : Nat → Byte) (o n : Nat) :
    sourceBytes B o (n + 4) = sourceBytes B o n ++ [B (o + n), B (o + n + 1), B (o + n + 2), B (o + n + 3)] := by
  simp [sourceBytes, List.range_succ, Nat.add_assoc]

/-- R104: encoding n words decoded from off gives the 4n bytes from off. -/
theorem encodeWords_decodeWords (B : Nat → Byte) (off n : Nat) :
    encodeWords (decodeWords B off n).toList = sourceBytes B off (4 * n) := by
  induction n with
  | zero => simp [sourceBytes, Vector.eq_empty (xs := decodeWords B off 0)]
  | succ n ih =>
    rw [decodeWords_succ, Vector.toList_push, encodeWords_concat, ih, encode32_le32, Nat.mul_succ, sourceBytes_add_four]

/-- Settles O52: `decodeWords_encodeWords` one way, `encodeWords_decodeWords` the other. -/
theorem codecDecodeInvertsEncode : Obligations.CodecDecodeInvertsEncode :=
  ⟨fun _ W => decodeWords_encodeWords W, encodeWords_decodeWords⟩

end Sys2Proof.Machine
end

section
/-! SUPPORT. The compression (41_compression.md): the rows of the step table as writes of one register, a running compression
step by step to its end, the words it starts from, and the round functions bit by bit. -/

namespace Sys2Proof.Machine

/-! ## The rows of the step table and the feed-forward (R117 to R170) -/

/-- R117, R119: the row of a step that adds no constant, as round 1's do. -/
theorem next_microStep_of_zero_const {n : Nat} {t x y z : Reg} {fn : Word → Word → Word → Word} {k : Fin 16} {sh : Nat}
    (s : State) :
    (.next (microStep n t x y z fn k 0#32 sh s) : Host.Outcome State Fault Refusal) =
      .next { s with
        sc := BitVec.ofNat 6 (n + 1)
        work := s.work.set t (rotl32 (s.work.get t + fn (s.work.get x) (s.work.get y) (s.work.get z) + s.X[k]) sh) } := by
  simp only [microStep, roundStep, BitVec.add_zero]

/-- Settles O38: each row is `next_microStep_of_zero_const` with its operands. -/
theorem roundOneStepsFirstHalf : Obligations.RoundOneStepsFirstHalf := by
  intro s
  refine ⟨?_, ?_, ?_, ?_, ?_, ?_, ?_, ?_⟩ <;> exact next_microStep_of_zero_const s

/-- Settles O39: each row is `next_microStep_of_zero_const` with its operands. -/
theorem roundOneStepsLastHalf : Obligations.RoundOneStepsLastHalf := by
  intro s
  refine ⟨?_, ?_, ?_, ?_, ?_, ?_, ?_, ?_⟩ <;> exact next_microStep_of_zero_const s

/-- Settles O40: each row is the shared step of R117 with its operands. -/
theorem roundTwoStepsFirstHalf : Obligations.RoundTwoStepsFirstHalf :=
  fun _ => ⟨rfl, rfl, rfl, rfl, rfl, rfl, rfl, rfl⟩

/-- Settles O41: each row is the shared step of R117 with its operands. -/
theorem roundTwoStepsLastHalf : Obligations.RoundTwoStepsLastHalf :=
  fun _ => ⟨rfl, rfl, rfl, rfl, rfl, rfl, rfl, rfl⟩

/-- Settles O42: each row is the shared step of R117 with its operands. -/
theorem roundThreeStepsFirstHalf : Obligations.RoundThreeStepsFirstHalf :=
  fun _ => ⟨rfl, rfl, rfl, rfl, rfl, rfl, rfl, rfl⟩

/-- Settles O43: each row is the shared step of R117 with its operands. -/
theorem roundThreeStepsLastHalf : Obligations.RoundThreeStepsLastHalf :=
  fun _ => ⟨rfl, rfl, rfl, rfl, rfl, rfl, rfl, rfl⟩

/-- Settles O44: the laws of `feedForward`, field by field. -/
theorem feedForwardAddsIntoState : Obligations.FeedForwardAddsIntoState := by
  refine fun s => ⟨feedForward s, rfl, ?_⟩
  simp [addWorking, srcByte_congr (feedForward_srcMem s)]

/-! ## A running compression, step by step (R171, R172) -/

/-- R86, R171: a step of a running compression at SC = n below 48 is step n of COMPRESS. -/
theorem step_of_schedule {s : State} {n : Nat} (hc : s.compressing = true) (hsc : s.sc = BitVec.ofNat 6 n) (hn : n < 48) :
    step s = .next { clearResponse s with work := loopStep s.X s.work n, sc := BitVec.ofNat 6 (n + 1) } := by
  obtain ⟨i, hi, hexec⟩ := stepTableFollowsTheSchedule n hn
  rw [step_of_micro hc (hsc ▸ hi), hexec]
  rfl

/-- R170, R171: a step of a running compression at SC = 48 is the feed-forward. -/
theorem step_of_feedForward {s : State} (hc : s.compressing = true) (hsc : s.sc = 48#6) :
    step s = .next (feedForward (clearResponse s)) :=
  step_of_micro (i := .feedforward) hc (by rw [hsc]; rfl)

/-- R172: a compression with k steps before the feed-forward runs them in order and ends. -/
theorem run_to_feedForward {n k : Nat} {s : State} (hc : s.compressing = true) (hsc : s.sc = BitVec.ofNat 6 n)
    (hnk : n + k = 48) :
    core.run (k + 1) s =
      .next (feedForward { clearResponse s with work := (List.range' n k).foldl (loopStep s.X) s.work }) := by
  induction k generalizing n s with
  | zero =>
    obtain rfl : n = 48 := hnk
    rw [run_next (step_of_feedForward hc hsc), run_zero]
    rfl
  | succ k ih =>
    exact (run_next (step_of_schedule hc hsc (by omega))).trans (ih (n := n + 1) hc rfl (by omega))

/-- Settles O46: `run_to_feedForward` from SC = 0. -/
theorem fortyNineMicroStepsAreCompress : Obligations.FortyNineMicroStepsAreCompress := by
  refine fun s B p => ⟨?_, ?_⟩
  · have hrun := run_to_feedForward (n := 0) (k := 48) (startCompression_compressing B p s) (startCompression_sc B p s) rfl
    rw [← List.range_eq_range'] at hrun
    rw [hrun, compress, rounds]
    rfl
  · rw [compress_S, compressWords, rounds]

/-- Settles O47: SC below 48 selects a step of the schedule, SC = 48 the feed-forward. -/
theorem stepCounterRunsInOrder : Obligations.StepCounterRunsInOrder := by
  refine ⟨fun s B p => ⟨rfl, rfl⟩, fun s hc hsc => ?_, fun s hc hsc => ?_⟩
  · refine ⟨_, step_of_schedule hc (by simp) hsc, ?_, hc⟩
    rw [BitVec.toNat_ofNat]
    omega
  · exact ⟨_, step_of_feedForward hc hsc, rfl, rfl⟩

/-! ## The start of a compression, and what COMPRESS depends on (R116, R174, R175) -/

/-- R101: byte j of a decoded word is its bits 8j + 7 : 8j. -/
theorem le32_extractByte (B : Nat → Byte) (a : Nat) (j : Fin 4) :
    (le32 (B a) (B (a + 1)) (B (a + 2)) (B (a + 3))).extractLsb' (8 * j.val) 8 = B (a + j.val) := by
  have hbytes := encode32_le32 (B a) (B (a + 1)) (B (a + 2)) (B (a + 3))
  simp only [encode32, List.cons.injEq, and_true] at hbytes
  obtain ⟨h0, h1, h2, h3⟩ := hbytes
  match j with
  | 0 => exact h0
  | 1 => exact h1
  | 2 => exact h2
  | 3 => exact h3

/-- Settles O48: each word of X is decoded from its four bytes, the rest is by the definition of the start. -/
theorem compressionStartLoadsWords : Obligations.CompressionStartLoadsWords := by
  refine fun s B p => ⟨fun k => ?_, rfl, rfl, rfl, rfl, rfl, rfl, rfl, rfl⟩
  have hword := decodeWords_getElem B p 16 k k.isLt
  exact ⟨hword, fun j => (congrArg (·.extractLsb' (8 * j.val) 8) hword).trans (le32_extractByte B _ j)⟩

/-- Settles O50: on the state the new S is the function of the old S and the bytes. -/
theorem compressDependsOnItsBytesAlone : Obligations.CompressDependsOnItsBytesAlone := by
  refine fun B B' p p' h => ⟨fun S => compressWords_congr S h, fun s s' hS => ?_⟩
  rw [compress_S, compress_S, hS, compressWords_congr s'.S h]

/-- Settles O51, by evaluation in the kernel. -/
theorem emptyMessageBlock : Obligations.EmptyMessageBlock := by
  unfold Obligations.EmptyMessageBlock
  decide +kernel

/-! ## The round functions bit by bit (R110 to R113, R11) -/

/-- R110: F selects. -/
theorem getLsbD_roundF (x y z : Word) {i : Nat} (hi : i < 32) :
    (roundF x y z).getLsbD i = if x.getLsbD i then y.getLsbD i else z.getLsbD i := by
  have select : ∀ a b c : Bool, (a && b || !a && c) = if a then b else c := by decide
  simp only [roundF, BitVec.getLsbD_or, BitVec.getLsbD_and, BitVec.getLsbD_not, hi, decide_true, Bool.true_and, select]

/-- R111: G is the majority. -/
theorem getLsbD_roundG (x y z : Word) (i : Nat) :
    (roundG x y z).getLsbD i = decide (2 ≤ (x.getLsbD i).toNat + (y.getLsbD i).toNat + (z.getLsbD i).toNat) := by
  have majority : ∀ a b c : Bool, (a && b || a && c || b && c) = decide (2 ≤ a.toNat + b.toNat + c.toNat) := by decide
  simp only [roundG, BitVec.getLsbD_or, BitVec.getLsbD_and, majority]

/-- R112: H is the parity. -/
theorem getLsbD_roundH (x y z : Word) (i : Nat) :
    (roundH x y z).getLsbD i =
      decide (((x.getLsbD i).toNat + (y.getLsbD i).toNat + (z.getLsbD i).toNat) % 2 = 1) := by
  have parity : ∀ a b c : Bool, ((a ^^ b) ^^ c) = decide ((a.toNat + b.toNat + c.toNat) % 2 = 1) := by decide
  simp only [roundH, BitVec.getLsbD_xor, parity]

/-- R11: `rotl32` moves bit i to bit (i + s) mod 32: below 32 by its left shift, from 32 on by its right shift. -/
theorem getLsbD_rotl32 (v : Word) {i s : Nat} (hi : i < 32) (hs : s < 32) :
    (rotl32 v s).getLsbD ((i + s) % 32) = v.getLsbD i := by
  rw [rotl32, BitVec.getLsbD_or, BitVec.getLsbD_shiftLeft, BitVec.getLsbD_ushiftRight]
  rcases Nat.lt_or_ge (i + s) 32 with h | h
  · rw [Nat.mod_eq_of_lt h, BitVec.getLsbD_of_ge v (32 - s + (i + s)) (by omega)]
    simp [h]
  · have hbit : (i + s) % 32 = i + s - 32 := by omega
    rw [hbit, show 32 - s + (i + s - 32) = i by omega]
    simp [show i + s - 32 < s by omega]

/-- Settles O49: `getLsbD_roundF`, `getLsbD_roundG`, `getLsbD_roundH` and `getLsbD_rotl32` at each bit. -/
theorem roundFunctionsBitByBit : Obligations.RoundFunctionsBitByBit := fun x y z i hi =>
  ⟨getLsbD_roundF x y z hi, getLsbD_roundG x y z i, getLsbD_roundH x y z i, fun _ _ hs => getLsbD_rotl32 x hi hs⟩

end Sys2Proof.Machine
end

section
/-! SUPPORT. INIT (42_initialize.md): what it answers, and what it leaves to change where the context is already initial. -/

namespace Sys2Proof.Machine

/-- R180, R183: where the context is initial and PHASE is 0, INIT writes DIGEST and the response alone. -/
theorem exec_init_of_fresh {s : State} (hf : s.fault = false) (hcontext : contextReset s = s)
    (hphase : s.phase = .initialized) :
    exec .init s = .next { s with digest := Vector.replicate 16 0x00#8, rsp := some ⟨.ok, none⟩ } := by
  rw [exec_init_ok hf, hcontext, ← hphase]
  rfl

/-- Settles O16: a second REFUSED repeats the first, and a completed INIT leaves what `exec_init_of_fresh` asks for. -/
theorem initIsIdempotent : Obligations.InitIsIdempotent := by
  intro s
  cases hf : s.fault with
  | true => exact ⟨_, exec_refused hf (.inl rfl), exec_refused (s := refuse s) hf (.inl rfl)⟩
  | false => exact ⟨_, exec_init_ok hf, exec_init_of_fresh hf rfl rfl⟩

/-- Settles O17: FINALIZE leaves a state with FAULT = 0, the context initial and PHASE = 0, as `exec_init_of_fresh` asks. -/
theorem initAfterFinalizeOnlyClearsDigest : Obligations.InitAfterFinalizeOnlyClearsDigest := fun _ hf =>
  ⟨_, exec_finalize_ok hf, exec_init_of_fresh (by simpa using hf) rfl rfl⟩

/-- Settles O15: `exec_refused` while FAULT = 1, else the laws of `contextReset` and `clearDigest`, field by field. -/
theorem initResetsTheContext : Obligations.InitResetsTheContext := by
  refine fun s => ⟨fun hf => exec_refused hf (.inl rfl), fun hf => ⟨_, exec_init_ok hf, ?_⟩⟩
  exact ⟨rfl, rfl, rfl, by simp, rfl, by simp, rfl, by simp, rfl, rfl, rfl, rfl, rfl, rfl, rfl, srcByte_congr rfl⟩

end Sys2Proof.Machine
end

section
/-! SUPPORT. UPDATE (43_update.md): what the context is once it has absorbed a byte string, in one UPDATE or in many; and
UPDATE_CORE over no bytes. -/

namespace Sys2Proof.Machine

/-! ## Contexts that have absorbed a byte string (R191 to R198) -/

/-- `t` has the context that `s` has once the bytes M are fed to it: every full block of its pending bytes and M is
compressed, the rest is pending, and M is counted. -/
structure State.Absorbs (s : State) (M : List Byte) (t : State) : Prop where
  S : t.S = absorb s.S (s.pending ++ M)
  bitCount : t.bitCount = s.bitCount + BitVec.ofNat 64 (8 * M.length)
  pending : t.pending = leftover (s.pending ++ M)

theorem absorb_of_short (S : Vector Word 4) {M : List Byte} (h : M.length < 64) : absorb S M = S := by
  rw [absorb, Nat.div_eq_of_lt h, compressBlocks_zero]

theorem leftover_of_short {M : List Byte} (h : M.length < 64) : leftover M = M := by
  rw [leftover, Nat.div_eq_of_lt h, Nat.mul_zero, List.drop_zero]

/-- Pending bytes fill no block, so a context has absorbed nothing where it stands. -/
theorem State.Absorbs.refl (s : State) : s.Absorbs [] s := by
  have hshort : s.pending.length < 64 := by simp
  constructor
  · rw [List.append_nil, absorb_of_short _ hshort]
  · simp
  · rw [List.append_nil, leftover_of_short hshort]

/-- R202: absorbing M and then N is absorbing M followed by N. -/
theorem State.Absorbs.trans {s t u : State} {M N : List Byte} (hM : s.Absorbs M t) (hN : t.Absorbs N u) :
    s.Absorbs (M ++ N) u := by
  constructor
  · rw [hN.S, hM.S, hM.pending, absorb_leftover, List.append_assoc]
  · rw [hN.bitCount, hM.bitCount, List.length_append, Nat.mul_add, BitVec.ofNat_add, BitVec.add_assoc]
  · rw [hN.pending, hM.pending, leftover_append, List.append_assoc]

/-- R191: an UPDATE in bounds absorbs its window. -/
theorem absorbs_update (s : State) (off len : Nat) :
    s.Absorbs (s.window off len) (respond .ok { updateCore s.srcByte off len s with phase := .updating }) where
  S := updateCore_S s.srcByte off len s
  bitCount := by
    rw [State.window, sourceBytes_length]
    exact updateCore_bitCount s.srcByte off len s
  pending := updateCore_pending s.srcByte off len s

theorem pendingLen_of_pending {t u : State} (h : t.pending = u.pending) : t.pendingLen = u.pendingLen :=
  Fin.ext (by rw [← pending_length, h, pending_length])

/-- R211 to R215: the digest depends on the chaining state, the bit count and the pending bytes alone. -/
theorem finalize_stateBytes_congr {t u : State} (hS : t.S = u.S) (hcount : t.bitCount = u.bitCount)
    (hpending : t.pending = u.pending) :
    (feedLengthField t.lengthField (feedPadding t)).stateBytes =
      (feedLengthField u.lengthField (feedPadding u)).stateBytes := by
  obtain ⟨hlo, hhi⟩ := countLo_countHi_of_bitCount hcount
  have hposition : t.bytePosition = u.bytePosition := by rw [bytePosition_eq, hlo, bytePosition_eq]
  have hfield : t.lengthField = u.lengthField := by rw [State.lengthField, hlo, hhi, State.lengthField]
  apply Vector.toList_inj.1
  rw [toList_stateBytes, toList_stateBytes, feedLengthField_feedPadding_S, feedLengthField_feedPadding_S, hS, hpending,
    hposition, hfield]

/-- A window reads the same where the cells of SRC are the same. -/
theorem window_congr {s t : State} (h : t.srcMem = s.srcMem) (off len : Nat) : t.window off len = s.window off len := by
  rw [State.window, funext (srcByte_congr h), State.window]

/-- R191, R198: an UPDATE in bounds completes without a fault, keeps the source window and absorbs its window. -/
theorem exec_update_absorbs {s : State} {off len : Nat} (hf : s.fault = false) (hb : off + len ≤ s.srcSize) :
    ∃ u, exec (.update off len) s = .next u ∧ u.fault = false ∧ s.SameSource u ∧ s.Absorbs (s.window off len) u :=
  ⟨_, exec_update_ok hf hb, by simpa using hf, ⟨by simp, by simp⟩, absorbs_update s off len⟩

/-- R202: where the first UPDATE answers a next state, the feeding goes on from there. -/
theorem feedChunks_of_exec {s u : State} {off n : Nat} {ns : List Nat} (h : exec (.update off n) s = .next u) :
    feedChunks off (n :: ns) s = feedChunks (off + n) ns u := by
  rw [feedChunks, h]

/-- R202: successive UPDATEs over consecutive windows absorb all of them. -/
theorem feedChunks_absorbs {lens : List Nat} {s : State} {off : Nat} (hf : s.fault = false)
    (hb : off + lens.sum ≤ s.srcSize) :
    ∃ t, feedChunks off lens s = .next t ∧ t.fault = false ∧ s.Absorbs (s.window off lens.sum) t := by
  induction lens generalizing s off with
  | nil => exact ⟨s, rfl, hf, .refl s⟩
  | cons n ns ih =>
    rw [List.sum_cons] at hb ⊢
    obtain ⟨u, hexec, hfault, ⟨hsize, hmem⟩, hfirst⟩ := exec_update_absorbs (off := off) (len := n) hf (by omega)
    obtain ⟨t, ht, htf, hrest⟩ := ih (s := u) (off := off + n) hfault (by omega)
    rw [window_congr hmem] at hrest
    refine ⟨t, (feedChunks_of_exec hexec).trans ht, htf, ?_⟩
    rw [← window_append]
    exact hfirst.trans hrest

/-- Settles O23: the UPDATE absorbs its window. -/
theorem updateAbsorbsTheWindow : Obligations.UpdateAbsorbsTheWindow := fun _ _ _ hf hb =>
  ⟨_, exec_update_ok hf hb, updateCore_S _ _ _ _, updateCore_pending _ _ _ _, updateCore_pendingLen _ _ _ _,
    updateCore_bitCount _ _ _ _, rfl, rfl⟩

/-- Settles O30: the successive UPDATEs and the one UPDATE absorb the same window, which fixes the context. -/
theorem chunkingInvariance : Obligations.ChunkingInvariance := by
  intro lens s off hf hb
  obtain ⟨t, ht, htf, hchunks⟩ := feedChunks_absorbs hf hb
  obtain ⟨u, hu, huf, -, hwhole⟩ := exec_update_absorbs hf hb
  have hS := hchunks.S.trans hwhole.S.symm
  have hcount := hchunks.bitCount.trans hwhole.bitCount.symm
  have hpending := hchunks.pending.trans hwhole.pending.symm
  exact ⟨t, u, ht, hu, hS, hcount, pendingLen_of_pending hpending, hpending,
    _, _, exec_finalize_ok htf, exec_finalize_ok huf, finalize_stateBytes_congr hS hcount hpending⟩

/-! ## Bit count, BUF, and the UPDATE of no bytes (R193, R194, R196, R199) -/

/-- Settles O24: the halves of the count after R193, and the number they make. -/
theorem updateCountsBits : Obligations.UpdateCountsBits := by
  intro s off n hf _ hb
  refine ⟨_, exec_update_ok hf hb, by simpa using hf, ⟨?_, ?_⟩, ?_⟩
  · simp
  · simp [Nat.shiftRight_eq_div_pow]
  · rw [← bitCount_addBitCount]
    simp [State.bitCount]

/-- Settles O25: `updateCore_buf` on its two paths. -/
theorem updateWritesTheBuffer : Obligations.UpdateWritesTheBuffer := by
  intro s t off len hf hb ht
  cases ht.symm.trans (exec_update_ok hf hb)
  have hbuf := fun k : Fin 64 => updateCore_buf s.srcByte off len s k k.isLt
  exact ⟨fun happend k => (hbuf k).trans (if_pos happend), fun hblock k => (hbuf k).trans (if_neg (by omega))⟩

theorem addBitCount_zero (s : State) : addBitCount 0 s = s := by
  have hlo : countLowAfter s.countLo 0 = s.countLo := BitVec.eq_of_toNat_eq (by rw [countLowAfter_toNat]; omega)
  have hhi : countHighAfter s.countLo s.countHi 0 = s.countHi :=
    BitVec.eq_of_toNat_eq (by rw [countHighAfter_toNat]; omega)
  rw [addBitCount, hlo, hhi]

theorem copyBytes_zero (buf : Vector Byte 64) (start : Nat) (B : Nat → Byte) (o : Nat) :
    copyBytes buf start B o 0 = buf := by
  ext k hk : 1
  rw [copyBytes_getElem, if_neg (by omega)]

/-- R196: the append path over no bytes. -/
theorem storeTail_zero (B : Nat → Byte) (o : Nat) (s : State) : storeTail s.pendingLen.val B o 0 s = s := by
  rw [storeTail, copyIntoBuf, copyBytes_zero, Nat.add_zero, Fin.ofNat_val_eq_self]

/-- R199: UPDATE_CORE over no bytes does nothing. -/
theorem updateCore_zero (B : Nat → Byte) (o : Nat) (s : State) : updateCore B o 0 s = s := by
  rw [updateCore_append s.pendingLen.isLt, addBitCount_zero, storeTail_zero]

/-- Settles O28: UPDATE_CORE over no bytes does nothing, so PHASE and the response are all that is written. -/
theorem zeroLengthUpdate : Obligations.ZeroLengthUpdate := by
  intro s off hf hb
  rw [exec_update_ok (len := 0) hf hb, updateCore_zero]
  rfl

end Sys2Proof.Machine
end

section
/-! SUPPORT. FINALIZE (44_finalize.md): the digest bytes, the one block the length field completes, the digest of the message
fed, and the digests of fixed messages. -/

namespace Sys2Proof.Machine

/-! ## The digest bytes (R215) -/

/-- R100: byte j of the encoding of a word is its bits 8j+7 to 8j. -/
theorem listByte_encode32 (w : Word) (j : Fin 4) : listByte (encode32 w) j = w.extractLsb' (8 * j.val) 8 := by
  match j with
  | 0 | 1 | 2 | 3 => rfl

/-- R103: byte 4i + j of an encoding is byte j of word i. -/
theorem encodeWords_getElem? {n : Nat} (S : Vector Word n) (i : Fin n) (j : Fin 4) :
    (encodeWords S.toList)[4 * i.val + j.val]? = some (S[i].extractLsb' (8 * j.val) 8) := by
  have hi : i.val < S.toList.length := by simp
  have hlen : 4 * i.val + j.val < (encodeWords S.toList).length := by
    rw [encodeWords_length]
    omega
  have hbyte := listByte_encodeWords hi j.isLt
  rw [listByte_encode32, listByte, List.getD_eq_getElem _ _ hlen] at hbyte
  rw [List.getElem?_eq_getElem hlen, hbyte]
  rfl

/-- Settles O31: `exec_refused` while FAULT = 1, else the digest is what the two feeds absorb, and the frame of the feeds. -/
theorem finalizeDeliversTheDigest : Obligations.FinalizeDeliversTheDigest := by
  refine fun s => ⟨fun hf => exec_refused hf (.inr (.inr rfl)), fun hf => ⟨_, exec_finalize_ok hf, ?_⟩⟩
  refine ⟨fun i j => ?_, rfl, rfl, rfl, rfl, by simp, rfl, by simp, rfl, rfl, by simp, by simp, by simp, by simp, by simp,
    srcByte_congr (by simp)⟩
  rw [← bytePosition_eq]
  have hdigest := encodeWords_getElem? (feedLengthField s.lengthField (feedPadding s)).S i j
  rw [← toList_stateBytes, feedLengthField_feedPadding_S] at hdigest
  exact hdigest

/-! ## The padding and the block the length field completes (R212, R213, R217) -/

/-- R172: a byte string that holds one full block is absorbed by one COMPRESS. -/
theorem absorb_of_one_block (S : Vector Word 4) {M : List Byte} (h : M.length / 64 = 1) :
    absorb S M = compressWords S (listByte M) 0 := by
  rw [absorb, h, compressBlocks_succ, compressBlocks_zero]

/-- R212: the padding reaches byte 56 of the block, or of the next. -/
theorem add_padLength {r : Nat} (h : r < 64) : r + padLength r = if r < 56 then 56 else 120 := by
  unfold padLength
  split <;> omega

/-- R217, R25: how many bytes the pending bytes and the padding are. -/
theorem pending_padBytes_length {s : State} (h : s.lengthOk) :
    (s.pending ++ padBytes (padLength s.bytePosition)).length = if s.bytePosition < 56 then 56 else 120 := by
  rw [List.length_append, pending_length, padBytes_padLength_length, h, add_padLength (bytePosition_lt s)]

/-- R217: 56 bytes are pending after the padding. -/
theorem feedPadding_pendingLen {s : State} (h : s.lengthOk) : (feedPadding s).pendingLen.val = 56 := by
  rw [feedPadding, updateCore_pendingLen, h, add_padLength (bytePosition_lt s)]
  split <;> rfl

/-- Settles O32: the pending bytes and the padding are 56 bytes or 120, and 56 bytes and the length field are 64. -/
theorem paddingLeavesFiftySixPending : Obligations.PaddingLeavesFiftySixPending := by
  intro s lenf hs hlenf
  have hpadded := pending_padBytes_length hs
  have hpending := feedPadding_pendingLen hs
  refine ⟨hpending, fun hr => ?_, fun hr => ?_, ?_, ?_⟩
  · rw [if_pos hr] at hpadded
    rw [feedPadding_S, absorb_of_short _ (by omega)]
  · rw [if_neg (by omega)] at hpadded
    rw [feedPadding_S, absorb_of_one_block _ (by omega)]
  · rw [feedLengthField_S hlenf, absorb_of_one_block _ (by simp [hpending, hlenf])]
  · rw [feedLengthField, updateCore_pendingLen, hpending]

/-! ## MD4 of the message fed (R219 to R221) -/

/-- R219: the padded message is a whole number of blocks. -/
theorem paddedMessage_length_mod (M : List Byte) : (paddedMessage M).length % 64 = 0 := by
  have hr : M.length % 64 < 64 := Nat.mod_lt _ (by decide)
  have hpad := add_padLength hr
  simp only [paddedMessage, List.length_append, padBytes_length (padLength_pos hr), encodeWords_length, List.length_cons,
    List.length_nil]
  split at hpad <;> omega

/-- R219, R221: FINALIZE of a context that has been fed M delivers MD4 of M and leaves a fresh context. -/
theorem State.Fed.exec_finalize {s : State} {M : List Byte} (h : s.Fed M) (hf : s.fault = false) :
    ∃ t, exec .finalize s = .next t ∧ t.digest.toList = md4 M ∧ t.rsp = some ⟨.ok, some t.digest⟩ ∧ t.Fed [] :=
  ⟨_, exec_finalize_ok hf, h.digest_eq_md4, rfl, fed_nil_finalize _⟩

/-- R221: FINALIZE leaves a fresh context and no fault, whatever the context has been fed. -/
theorem exec_finalize_fresh {s : State} (hf : s.fault = false) :
    ∃ t, exec .finalize s = .next t ∧ t.fault = false ∧ t.Fed [] :=
  ⟨_, exec_finalize_ok hf, by simpa using hf, fed_nil_finalize _⟩

/-- Settles O35: the FINALIZE of a context that has been fed M, and the length of the padded message. -/
theorem finalizeComputesMd4 : Obligations.FinalizeComputesMd4 := by
  intro s M h hf
  obtain ⟨t, ht, hdigest, hrsp, hfresh⟩ := h.exec_finalize hf
  exact ⟨t, ht, hdigest, hrsp, hfresh, paddedMessage_length_mod M⟩

/-- R175, R220: the padded empty message is the block whose compression `emptyMessageBlock` gives. -/
theorem md4_nil : md4 [] = [0x31#8, 0xd6#8, 0xcf#8, 0xe0#8, 0xd1#8, 0x6a#8, 0xe9#8, 0x31#8,
    0xb7#8, 0x3c#8, 0x59#8, 0xd7#8, 0xe0#8, 0xc0#8, 0x89#8, 0xc0#8] := by
  have hpadded : paddedMessage [] = 0x80#8 :: List.replicate 63 0x00#8 := by decide
  have hblock := emptyMessageBlock
  unfold Obligations.EmptyMessageBlock at hblock
  rw [md4, hpadded, absorb_of_one_block _ rfl, initialState, hblock]
  decide

/-- Settles O36: MD4 of the empty message; a FINALIZE leaves the fresh context that the second one needs. -/
theorem emptyMessageDigest : Obligations.EmptyMessageDigest := by
  constructor
  · intro s h hf
    obtain ⟨t, ht, hdigest, -, -⟩ := h.exec_finalize hf
    exact ⟨t, ht, hdigest.trans md4_nil⟩
  · intro s hf
    obtain ⟨t, ht, htf, hfresh⟩ := exec_finalize_fresh hf
    obtain ⟨u, hu, hdigest, -, -⟩ := hfresh.exec_finalize htf
    exact ⟨t, u, ht, hu, hdigest.trans md4_nil⟩

/-! ## The digests of fixed messages (R223) -/

/-- R50: the window of a whole source is the source. -/
theorem window_presentSource (M : List Byte) (s : State) : (presentSource M s).window 0 M.length = M := by
  have hbytes : (presentSource M s).srcByte = listByte M := funext fun j => Memory.read_ofBytes M j
  rw [State.window, hbytes, sourceBytes_listByte]

/-- R219: one UPDATE of a whole source and FINALIZE, from a fresh context, deliver MD4 of the source. -/
theorem exec_update_finalize_md4 {s : State} (h : s.Fed []) (hf : s.fault = false) (M : List Byte) :
    ∃ t u, exec (.update 0 M.length) (presentSource M s) = .next t ∧ exec .finalize t = .next u ∧
      u.digest.toList = md4 M := by
  have hsource : (presentSource M s).Fed [] := h.congr rfl rfl rfl rfl rfl
  have hfed := hsource.update 0 M.length
  rw [window_presentSource, List.nil_append] at hfed
  obtain ⟨u, hu, hdigest, -, -⟩ := hfed.exec_finalize (by simpa using hf)
  exact ⟨_, u, exec_update_ok hf (by simp), hu, hdigest⟩

/-- Settles O37: `exec_update_finalize_md4` from the reset state, and the values of MD4, evaluated in the kernel. -/
theorem sourceDigests : Obligations.SourceDigests := by
  unfold Obligations.SourceDigests
  intro hashes
  have hmd4 : ∀ M D : List Byte, md4 M = D → hashes M D := fun M _ hD =>
    hD ▸ exec_update_finalize_md4 (fed_nil_of_initial rfl rfl rfl rfl) rfl M
  exact ⟨hmd4 _ _ md4_nil, hmd4 _ _ (by decide +kernel), hmd4 _ _ (by decide +kernel), hmd4 _ _ (by decide +kernel)⟩

end Sys2Proof.Machine
end

section
/-! SUPPORT. Exceptions (60_exceptions.md): which step takes a command or an illegal header off the inputs, how a step moves
FAULT and CAUSE, and what a fault leaves unchanged. -/

namespace Sys2Proof.Machine

/-! ## A command or an illegal header at the front of the inputs (R74, R76) -/

/-- R76: a header that is no command's is rejected alone. -/
theorem decodeCommand_of_reserved {h : Word} (hne : h ≠ 0x00000001#32 ∧ h ≠ 0x00000002#32 ∧ h ≠ 0x00000003#32)
    (ws : List Word) : ∃ why, decodeCommand (h :: ws) = .illegal why ws := by
  obtain ⟨h1, h2, h3⟩ := hne
  simpa [h1, h2, h3] using decodeCommand_cases h ws

/-- R85: an instruction that has words on CMD is one of the three commands. -/
theorem command_of_commandWords {i : Instr} (hne : commandWords i ≠ []) :
    i = .init ∨ (∃ off len, i = .update off len) ∨ i = .finalize := by
  refine (command_or_micro i).resolve_right ?_
  rintro ⟨sc, hsc, -⟩
  exact hne (by rw [commandWords, hsc])

/-- Taking inputs off where nothing is partly received changes the inputs alone. -/
theorem clear_rx_of_nil {s : State} (hrx : s.rx = []) (evs : List HostEvent) :
    ({ s with rx := [], inbox := evs } : State) = { s with inbox := evs } := by
  rw [← hrx]

/-- R74: between commands, the words of a command at the front of the inputs are consumed and it runs. -/
theorem step_of_commandWords {s : State} {i : Instr} {evs : List HostEvent} (hc : s.compressing = false)
    (hrx : s.rx = []) (hwf : i.wf = true) (hne : commandWords i ≠ [])
    (hin : s.inbox = (commandWords i).map .word ++ evs) :
    step s = exec i (clearResponse { s with inbox := evs }) := by
  have hdecode : decodeCommand ([] ++ commandWords i) = .command i [] := by
    simpa using decodeCommand_commandWords (command_of_commandWords hne) hwf []
  have hr : receive s.rx s.inbox = .command i evs := by
    rw [hrx, hin]
    exact receive_of_command _ [] evs hne rfl hdecode
  rw [step_of_command hc hr, clear_rx_of_nil hrx]

/-- R74, R241: between commands, an illegal header at the front of the inputs is consumed alone. -/
theorem step_of_illegalHeader {s : State} {h : Word} {why : Reject} {evs : List HostEvent} (hc : s.compressing = false)
    (hrx : s.rx = []) (hd : decodeCommand [h] = .illegal why []) (hin : s.inbox = .word h :: evs) :
    step s = .next (illegalCommand (clearResponse { s with inbox := evs })) := by
  have hr : receive s.rx s.inbox = .illegal evs := by
    rw [hrx, hin]
    exact receive_of_illegal evs hd
  rw [step_of_illegal hc hr, clear_rx_of_nil hrx]

/-- R238: an illegal header is refused while FAULT = 1. -/
theorem illegalCommand_of_fault {s : State} (hf : s.fault = true) : illegalCommand s = refuse s := if_pos hf

/-- R241: an illegal header raises IllegalCommand while FAULT = 0. -/
theorem illegalCommand_of_no_fault {s : State} (hf : s.fault = false) : illegalCommand s = raiseFault .illegal s :=
  if_neg (by simp [hf])

/-- Settles O18: a header with such fields is no command's, so it is consumed alone and raises its fault. -/
theorem illegalHeaderRaisesIllegalCommand : Obligations.IllegalHeaderRaisesIllegalCommand := by
  intro s h evs hc hrx hf hin hfields
  obtain ⟨why, hd⟩ := decodeCommand_of_reserved ((header_reserved_iff h).2 (by omega)) []
  exact ⟨(step_of_illegalHeader hc hrx hd hin).trans (congrArg _ (illegalCommand_of_no_fault hf)), rfl, rfl⟩

/-- Settles O20: the words are consumed, and a faulted machine refuses what they spell. -/
theorem faultedMachineRefusesCommands : Obligations.FaultedMachineRefusesCommands := by
  refine ⟨fun s i evs hc hrx hf hwf hne hin => ?_, fun s h why evs hc hrx hf hd hin => ?_, rfl⟩
  · exact (step_of_commandWords hc hrx hwf hne hin).trans
      (exec_refused (s := clearResponse { s with inbox := evs }) hf (command_of_commandWords hne))
  · exact (step_of_illegalHeader hc hrx hd hin).trans (congrArg _ (illegalCommand_of_fault hf))

/-! ## The bounds check (R240) -/

/-- R240: an UPDATE whose window is in bounds answers OK and raises no fault. -/
theorem exec_update_no_fault {s : State} {off len : Nat} (hf : s.fault = false) (hb : off + len ≤ s.srcSize) :
    ∃ t, exec (.update off len) s = .next t ∧ t.fault = false ∧ t.rsp = some ⟨.ok, none⟩ :=
  ⟨_, exec_update_ok hf hb, by simpa using hf, rfl⟩

/-- Settles O19: `exec_update_bounds` past SRC_SIZE, `exec_update_no_fault` up to it, the empty window at its end included. -/
theorem updateBoundsFault : Obligations.UpdateBoundsFault := by
  intro s off len hf
  obtain ⟨t, ht, htf, -⟩ := exec_update_no_fault (off := s.srcSize) (len := 0) hf (Nat.le_refl _)
  obtain ⟨u, hu, huf, -⟩ := exec_finalize_fresh hf
  exact ⟨exec_update_bounds hf, exec_update_no_fault hf, ⟨t, ht, htf⟩, ⟨u, hu, huf⟩, rfl, rfl⟩

/-! ## How a step moves FAULT and CAUSE (R234, R236, R237) -/

/-- FAULT and CAUSE of two states are the same. -/
def State.SameFault (s t : State) : Prop := t.fault = s.fault ∧ t.cause = s.cause

/-- A micro-operation that SC selects keeps FAULT and CAUSE. -/
theorem exec_micro_sameFault {s t : State} {i : Instr} {sc : BitVec 6} (hi : decodeMicro sc = some i)
    (ht : exec i s = .next t) : s.SameFault t := by
  obtain ⟨-, w, hw⟩ | ⟨-, rfl⟩ := decodeMicro_exec hi
  · rw [hw] at ht
    cases ht
    exact ⟨rfl, rfl⟩
  · cases ht
    exact ⟨rfl, rfl⟩

/-- A command keeps FAULT and CAUSE, or it is one that raises BoundsFault from FAULT = 0. -/
theorem exec_command_fault {s t : State} {i : Instr}
    (hi : i = .init ∨ (∃ off len, i = .update off len) ∨ i = .finalize) (ht : exec i s = .next t) :
    s.SameFault t ∨ (s.fault = false ∧ t = raiseFault .bounds s) := by
  obtain ⟨-, rfl⟩ | ⟨-, -, rfl⟩ | ⟨hf, off, len, -, rfl | rfl⟩ | ⟨-, -, rfl⟩ := exec_command_cases hi ht
  · exact .inl ⟨rfl, rfl⟩
  · exact .inl ⟨rfl, rfl⟩
  · exact .inr ⟨hf, rfl⟩
  · exact .inl ⟨by simp, by simp⟩
  · exact .inl ⟨by simp, by simp⟩

/-- An illegal header keeps FAULT and CAUSE, or it raises IllegalCommand from FAULT = 0. -/
theorem illegalCommand_fault (s : State) :
    s.SameFault (illegalCommand s) ∨ (s.fault = false ∧ illegalCommand s = raiseFault .illegal s) := by
  cases hf : s.fault with
  | true =>
    rw [illegalCommand_of_fault hf]
    exact .inl ⟨rfl, rfl⟩
  | false => exact .inr ⟨rfl, illegalCommand_of_no_fault hf⟩

/-- A step keeps FAULT and CAUSE, or it takes RST, or with FAULT = 0 it takes words off the inputs and raises one of the
two faults on the state that leaves. -/
theorem step_fault {s t : State} (hstep : step s = .next t) :
    s.SameFault t ∨
    (s.compressing = false ∧ s.inbox.head? = some .rst ∧ t.fault = false) ∨
    (s.fault = false ∧ ∃ cause evs, (cause = .bounds ∨ cause = .illegal) ∧
      t = raiseFault cause (clearResponse { s with rx := [], inbox := evs })) := by
  cases step_cases hstep with
  | micro i _ hi ht => exact .inl (exec_micro_sameFault (s := clearResponse s) hi ht)
  | idle _ _ ht => subst ht; exact .inl ⟨rfl, rfl⟩
  | reset evs hc hin ht => subst ht; exact .inr (.inl ⟨hc, by rw [hin]; rfl, rfl⟩)
  | source bytes evs _ _ _ ht => subst ht; exact .inl ⟨rfl, rfl⟩
  | command i evs _ hr ht =>
    exact (exec_command_fault (receive_command hr) ht).imp_right
      fun ⟨hf, ht⟩ => .inr ⟨hf, .bounds, evs, .inl rfl, ht⟩
  | illegal evs _ _ ht =>
    subst ht
    exact (illegalCommand_fault (clearResponse { s with rx := [], inbox := evs })).imp_right
      fun ⟨hf, ht⟩ => .inr ⟨hf, .illegal, evs, .inr rfl, ht⟩
  | waiting rx evs _ _ _ ht => subst ht; exact .inl ⟨rfl, rfl⟩

/-- Settles O21: of the ways a step moves FAULT, only RST is left where FAULT = 1; an INIT is refused there. -/
theorem onlyHardwareResetClearsFault : Obligations.OnlyHardwareResetClearsFault := by
  refine ⟨fun s t hf hstep => ?_, fun s hf => ⟨_, exec_refused hf (.inl rfl), hf, rfl⟩⟩
  obtain ⟨hfault, hcause⟩ | ⟨hc, hrst, -⟩ | ⟨hf', -⟩ := step_fault hstep
  · exact .inr ⟨hfault.trans hf, hcause⟩
  · exact .inl ⟨hc, hrst⟩
  · exact absurd (hf.symm.trans hf') (by decide)

/-- Settles O22: of the ways a step moves FAULT, only the raising of a fault sets it, and that writes FAULT, CAUSE and the
ports. -/
theorem faultsArePrecise : Obligations.FaultsArePrecise := by
  intro s t hf hstep htf
  obtain ⟨hfault, -⟩ | ⟨-, -, hclear⟩ | ⟨-, cause, evs, hcause, rfl⟩ := step_fault hstep
  · exact absurd (htf.symm.trans (hfault.trans hf)) (by decide)
  · exact absurd (htf.symm.trans hclear) (by decide)
  · exact ⟨rfl, hcause⟩

end Sys2Proof.Machine
end

section
/-! SUPPORT. Reset (70_reset_and_hazards.md): what RST leaves of any state, and the invariant of the state right after reset. -/

namespace Sys2Proof.Machine

/-- Right after reset SRC is the empty window: no bytes, SRC_SIZE 0. -/
theorem reset_sourceOk : State.reset.sourceOk := ⟨rfl, rfl, by decide⟩

/-- Settles O12: the context is fresh, the sequencer at rest, no fault raised, and the three ports empty. -/
theorem resetMeetsInvariant : Obligations.ResetMeetsInvariant where
  sequencer := sequencerOk_of_idle rfl rfl
  length := lengthOk_of_fresh rfl rfl
  fault := iff_of_false nofun fun hcause => hcause rfl
  source := reset_sourceOk
  reception := rfl
  response := responseOk_of_none rfl

/-- Settles O10: the step is the hardware reset of the state with RST taken off its inputs; its fields are read off it, the
bytes and words of BUF, X and DIGEST one by one. -/
theorem hardwareResetLeavesResetValues : Obligations.HardwareResetLeavesResetValues := by
  intro s evs hc hin
  refine ⟨_, step_of_rst hc hin, rfl, rfl, rfl, rfl, rfl, rfl, ?buf, rfl, ?X, rfl, ?digest, rfl, rfl, rfl⟩
  case buf => simp
  case X => simp
  case digest => simp

end Sys2Proof.Machine
end

section
/-! SUPPORT. The words and SC values written out in the spec's encoding tables (30_encoding.md). -/

namespace Sys2Proof.Machine

/-- Settles O1: the words written out are the encodings of the three commands (R72, R73), which decode back to them; SC
selects by the rows of its table (R88). -/
theorem decodeReadsTheSpecWords : Obligations.DecodeReadsTheSpecWords := by
  refine ⟨?init, ?update, ?finalize, rfl, rfl, rfl, rfl⟩
  case init => exact decodeCommand_commandWords (.inl rfl) rfl []
  case update => exact decodeCommand_commandWords (.inr (.inl ⟨5, 3, rfl⟩)) rfl []
  case finalize => exact decodeCommand_commandWords (.inr (.inr rfl)) rfl []

end Sys2Proof.Machine
end
